-- ==== Sys2Proof/Word.lean ====
section
/-! DEFINITION. The byte, the block's one unit of storage (20_memory.md rules R60 and R65). -/

namespace Sys2Proof

/-- One frame-buffer cell, command byte or duty value: 8 bits. -/
abbrev Byte := BitVec 8

end Sys2Proof
end

