-- ==== Sys2Proof/Config.lean ====
section
/-! DEFINITION. The parameter record of 00_scope.md rule R7, the reference example REF-EX, the text template,
and the one source of free values. -/

namespace Sys2Proof

/-- How `CTL.TARGET` rounds its quotient (parameter `TARGET_ROUND`, rule R7). -/
inductive Rounding where
  /-- Nearest, an exact half upward. -/
  | nearestHalfUp
  /-- Plain integer division. -/
  | truncate
deriving DecidableEq, Repr

/-- The implementation parameters of rule R7, which a model takes as an argument. The quantities the table calls
fixed (`LINE2_INDEX`, `END_INDEX`, `FB_LEN`) are the constants `line2Index`, `endIndex` and `frameLength`. -/
structure Params where
  /-- `MIN_RPM`: lower clamp of the commanded speed. -/
  minRpm : Nat
  /-- `MAX_RPM`: upper clamp of the commanded speed and divisor of the correction term. -/
  maxRpm : Nat
  /-- `K_DIV`: sample-count threshold of the control divider. -/
  kDiv : Nat
  /-- `FULL_SCALE`: the analog reading that maps to `MAX_RPM`. -/
  fullScale : Nat
  /-- `WINDOW_CONST`: divisor of pulses times 60. -/
  windowConst : Nat
  /-- `SAMPLE_CNT_WIDTH`: width in bits of the control divider counter. -/
  sampleWidth : Nat
  /-- `DIV_RELOAD`: whether the control divider is cleared when it matches. -/
  divReload : Bool
  /-- `TARGET_ROUND`: rounding of the commanded-speed scaling. -/
  targetRound : Rounding
  /-- `SCHED_T[0..7]`: tick counts of the init schedule. -/
  schedT : Vector (BitVec 16) 8
  /-- `CMD_FUNCTION_SET`. -/
  cmdFunctionSet : Byte
  /-- `CMD_DISPLAY_OFF`. -/
  cmdDisplayOff : Byte
  /-- `CMD_DISPLAY_CLEAR`. -/
  cmdDisplayClear : Byte
  /-- `CMD_ENTRY_MODE`. -/
  cmdEntryMode : Byte
  /-- `CMD_DISPLAY_ON`. -/
  cmdDisplayOn : Byte
  /-- `CMD_LINE2`. -/
  cmdLine2 : Byte
  /-- `CMD_HOME`. -/
  cmdHome : Byte
  /-- `DUTY_RESET`: reset value of `DUTY`. -/
  dutyReset : Byte
  /-- `FB_RESET[0..31]`: reset content of the frame buffer. -/
  fbReset : Vector Byte 32
deriving DecidableEq, Repr

/-- `FB_LEN`, fixed (rule R7). -/
abbrev frameLength : Nat := 32

/-- `LINE2_INDEX`, the "start of second line" cursor value, fixed (rule R7). -/
abbrev line2Index : Nat := 16

/-- `END_INDEX`, the "end of buffer" cursor value, fixed (rule R7). -/
abbrev endIndex : Nat := 32

/-- `TEMPLATE[0..31]` (20_memory.md rule R63): the text "TARGET RPM- 0000ACTUAL RPM- 0000" in 7-bit ASCII. -/
def textTemplate : Vector Byte 32 :=
  #v[0x54, 0x41, 0x52, 0x47, 0x45, 0x54, 0x20, 0x52, 0x50, 0x4D, 0x2D, 0x20, 0x30, 0x30, 0x30, 0x30,
     0x41, 0x43, 0x54, 0x55, 0x41, 0x4C, 0x20, 0x52, 0x50, 0x4D, 0x2D, 0x20, 0x30, 0x30, 0x30, 0x30]

/-- REF-EX, the reference example of rule R7. `DUTY_RESET` has no example there; 0x80 is the test value of
95_test_vectors.md. DESIGN CHOICE (assumption log 1 and 3): unsafe to rely on; statements hold for every record. -/
def Params.refEx : Params where
  minRpm := 250
  maxRpm := 1000
  kDiv := 500
  fullScale := 4095
  windowConst := 12
  sampleWidth := 16
  divReload := false
  targetRound := .nearestHalfUp
  schedT := #v[16, 21, 22, 23, 24, 25, 27, 28]
  cmdFunctionSet := 0x38
  cmdDisplayOff := 0x08
  cmdDisplayClear := 0x01
  cmdEntryMode := 0x06
  cmdDisplayOn := 0x0C
  cmdLine2 := 0xC0
  cmdHome := 0x02
  dutyReset := 0x80
  fbReset := textTemplate

/-- The free values: the `n`-th value that a rule writes `draw(N)` and does not determine (rule R10). It has no
body, so nothing can be proved of it. DESIGN CHOICE (assumption log 8): safe. -/
opaque Config.draw : Nat → BitVec 32

end Sys2Proof
end

