-- ==== Sys2Proof/Machine/State.lean ====
section
/-! DEFINITION. The state of the block (10_state.md rule R20), the ways a step can stop, and the state after reset. -/

namespace Sys2Proof.Machine

/-- The four execution contexts (30_encoding.md rule R84). -/
inductive Context where
  | bg | ctrl | med | fast
deriving DecidableEq, Repr

/-- The three interrupt sources; a source and the context of its handler share a name and a code (rule R84). -/
inductive Source where
  | ctrl | med | fast
deriving DecidableEq, Repr

/-- The transport phase `TS` (10_state.md rule R39, 30_encoding.md rule R89). -/
inductive Phase where
  | idle | setup | ehi | settle
deriving DecidableEq, Repr

/-- One bit per source: the register files `PEND`, `ACT` and `OVR` (10_state.md rules R36 to R38). -/
structure SourceBits where
  ctrl : Bool
  med : Bool
  fast : Bool
deriving DecidableEq, Repr

/-- The step registers `HPC[c]` (10_state.md rule R30). -/
structure Steps where
  bg : BitVec 6
  ctrl : BitVec 6
  med : BitVec 6
  fast : BitVec 6
deriving DecidableEq, Repr

/-- One turn of an agent (00_scope.md rules R12 and R13). The block does not determine whose turn it is, so the
choice is data of the state (assumption log 5). -/
inductive Turn where
  /-- The environment presents an event vector (30_encoding.md rule R81). -/
  | event (w : BitVec 7)
  /-- The environment changes the level on the `adc` port (10_state.md rule R21). -/
  | adc (level : BitVec 16)
  /-- The machine step of rule R13: a dispatch, or the running context's operation. -/
  | machine
  /-- The transport sequencer's phase (42_transport.md). -/
  | transport
  /-- The block runs on its own until it is at rest (30_encoding.md rule R102). -/
  | run
deriving DecidableEq, Repr

/-- The state. Fields are named after the spec's registers; `cfg`, the two traces, `agenda` and `draws` are not
state of the block but are held with it as plain data (assumption log 1, 5, 8 and 21). -/
structure State where
  /-- The parameter record (00_scope.md rule R7). -/
  cfg : Params
  /-- The level on the `adc` input port (rule R21). -/
  adc : BitVec 16
  /-- `RST_ACTIVE` (rule R40). -/
  rstActive : Bool
  /-- `DUTY` (rule R24). -/
  duty : Byte
  /-- `CMD_SPEED` (rule R25). -/
  cmdSpeed : BitVec 16
  /-- `MEAS_SPEED` (rule R26). -/
  measSpeed : BitVec 32
  /-- `PULSE_CNT` (rule R27). -/
  pulseCnt : BitVec 16
  /-- `T_ADC` (rule R28). -/
  tAdc : BitVec 16
  /-- `T_PULSES` (rule R28). -/
  tPulses : BitVec 16
  /-- `T_SEL` (rule R28; `Fin 8` by 30_encoding.md rule R98). -/
  tSel : Fin 8
  /-- `T_BYTE` (rule R28). -/
  tByte : Byte
  /-- `HPC[c]` (rule R30). -/
  hpc : Steps
  /-- `INIT_MS` (rule R32). -/
  initMs : BitVec 16
  /-- `INIT_DONE` (rule R32). -/
  initDone : Bool
  /-- `CURSOR`, `0 .. 32` (rule R33; `Fin 33` by 30_encoding.md rule R98). -/
  cursor : Fin 33
  /-- `SAMPLE_CNT` (rule R34), below `2^SAMPLE_CNT_WIDTH`. -/
  sampleCnt : BitVec 32
  /-- `IEN`, the global interrupt enable (rule R35). -/
  ien : Bool
  /-- `IEN_SAVE` (rule R35). -/
  ienSave : Bool
  /-- `PEND[s]` (rule R36). -/
  pend : SourceBits
  /-- `ACT[s]` (rule R37). -/
  act : SourceBits
  /-- `OVR[s]` (rule R38). -/
  ovr : SourceBits
  /-- `TS` (rule R39). -/
  ts : Phase
  /-- `TW` (rule R39). -/
  tw : BitVec 10
  /-- `FB[0..31]`: the cells that differ from `FB_RESET`, by rising index (20_memory.md rules R60, R61 and R77). -/
  fb : List Host.Cell
  /-- `LCD_TRACE` (00_scope.md rule R14), oldest entry first. -/
  lcdTrace : List (Bool × Byte)
  /-- `DUTY_TRACE` (00_scope.md rule R14), oldest entry first. -/
  dutyTrace : List Byte
  /-- The turns to come, next one first: the model's own field. -/
  agenda : List Turn
  /-- How many free values have been drawn: the model's own field. -/
  draws : Nat
deriving DecidableEq, Repr

/-- Why the machine stops with a fault. -/
inductive Fault where
  /-- A frame-buffer access at an index outside `0 .. 31`, which does not exist (20_memory.md rules R60 and R67).
  Raised by the memory read and write operations, in practice by `RFR.CHAR` with `CURSOR = 32`, which no run
  reaches. Safe. -/
  | noSuchCell
deriving DecidableEq, Repr

/-- Why the model has no such step. -/
inductive Refusal where
  /-- An instruction without a meaning in this model. Raised by no arm of `exec`. Safe. -/
  | notModelled (mnemonic : String)
  /-- `issue` with `TS` not `IDLE`: 42_transport.md rule R147 makes the violation a refusal. Raised by the issuing
  operations and the transport words; no run reaches it. Safe. -/
  | transportBusy
  /-- A value wider than its register, which 00_scope.md rule R11 calls an error of the spec: `INIT_MS + 1` past 16
  bits, or `CURSOR + 1` past 32. Raised by `INI.TICK` and `RFR.CHARW`; no run reaches it. Safe. -/
  | widthExceeded
  /-- A state code outside the table: 30_encoding.md rule R96, "the step function refuses them". Raised by the
  machine step; no run reaches it. Safe. -/
  | noOperation
  /-- A parameter record that violates 00_scope.md rule R7: "a model refuses a parameter record that violates one".
  Raised by `step`. Safe. -/
  | badParameters
deriving DecidableEq, Repr

/-- The machine right after reset: the state of 10_state.md rule R46 with reset released (70_reset_and_hazards.md
rule R261), under the reference record. The registers rule R46 leaves unspecified hold 0, and `adc` is 0.
DESIGN CHOICE (assumption log 1 to 5 and 22): unsafe to rely on; `EV.RST` leaves those registers free. -/
def State.reset : State where
  cfg := Params.refEx
  adc := 0
  rstActive := false
  duty := Params.refEx.dutyReset
  cmdSpeed := 0
  measSpeed := 0
  pulseCnt := 0
  tAdc := 0
  tPulses := 0
  tSel := 0
  tByte := 0
  hpc := ⟨0, 0, 0, 0⟩
  initMs := 0
  initDone := false
  cursor := 0
  sampleCnt := 0
  ien := false
  ienSave := false
  pend := ⟨false, false, false⟩
  act := ⟨false, false, false⟩
  ovr := ⟨false, false, false⟩
  ts := .idle
  tw := 0
  fb := []
  lcdTrace := []
  dutyTrace := []
  agenda := []
  draws := 0

end Sys2Proof.Machine
end

