-- ==== Sys2Proof/Machine/Ops.lean ====
section
/-! DEFINITION. The named operations over registers, contexts, frame buffer and transport; entering a handler
(the block's one kind of exception entry, 60_exceptions.md rule R237), returning from it (rule R240), and reset. -/

namespace Sys2Proof.Machine

/-- What an operation answers. -/
abbrev Result := Host.Outcome State Fault Refusal

/-- Goes on with a next state; a stop stays a stop. -/
def andThen (r : Result) (k : State → Result) : Result :=
  match r with
  | .next s => k s
  | .fault f => .fault f
  | .refused f => .refused f

/-! ### Register files -/

/-- Element `s` of a per-source register file. -/
def SourceBits.get (b : SourceBits) : Source → Bool
  | .ctrl => b.ctrl
  | .med => b.med
  | .fast => b.fast

/-- Writes element `s` of a per-source register file. -/
def SourceBits.set (b : SourceBits) (s : Source) (v : Bool) : SourceBits :=
  match s with
  | .ctrl => { b with ctrl := v }
  | .med => { b with med := v }
  | .fast => { b with fast := v }

/-- Element `c` of the step registers. -/
def Steps.get (h : Steps) : Context → BitVec 6
  | .bg => h.bg
  | .ctrl => h.ctrl
  | .med => h.med
  | .fast => h.fast

/-- Writes element `c` of the step registers. -/
def Steps.set (h : Steps) (c : Context) (n : BitVec 6) : Steps :=
  match c with
  | .bg => { h with bg := n }
  | .ctrl => { h with ctrl := n }
  | .med => { h with med := n }
  | .fast => { h with fast := n }

/-- The context of a source's handler (30_encoding.md rule R84). -/
def Source.context : Source → Context
  | .ctrl => .ctrl
  | .med => .med
  | .fast => .fast

/-- `HPC[c] <- n` (00_scope.md rule R10). -/
def State.setStep (s : State) (c : Context) (n : BitVec 6) : State :=
  { s with hpc := s.hpc.set c n }

/-- `PEND[src] <- v`. -/
def State.setPend (s : State) (src : Source) (v : Bool) : State :=
  { s with pend := s.pend.set src v }

/-- `ACT[src] <- v`. -/
def State.setAct (s : State) (src : Source) (v : Bool) : State :=
  { s with act := s.act.set src v }

/-- `OVR[src] <- v`. -/
def State.setOvr (s : State) (src : Source) (v : Bool) : State :=
  { s with ovr := s.ovr.set src v }

/-! ### Contexts -/

/-- The running context, a function of `ACT` (45_scheduler.md rule R206). -/
def State.running (s : State) : Context :=
  if s.act.fast then .fast
  else if s.act.med then .med
  else if s.act.ctrl then .ctrl
  else .bg

/-- Enters the handler of `src`: all that `DISPATCH.src` does (60_exceptions.md rule R237, 45_scheduler.md rule
R208). Nothing is saved, no vector is read, `IEN` is unchanged. -/
def enterHandler (src : Source) (s : State) : State :=
  ((s.setPend src false).setAct src true).setStep src.context 0

/-- Returns from the handler of `src`: all that `RET.src` does (60_exceptions.md rule R240, 45_scheduler.md rule
R209). Nothing is restored. -/
def leaveHandler (src : Source) (s : State) : State :=
  s.setAct src false

/-- The operation `BG.START` (45_scheduler.md rule R211): ignored unless `HPC[BG] = 0`. -/
def startBackground (s : State) : State :=
  if s.hpc.bg = 0 then { s with ien := true }.setStep .bg 1 else s

/-! ### Free values -/

/-- `draw(n)` (00_scope.md rule R10): the next free value, and the state in which it has been taken. -/
def draw (n : Nat) (s : State) : BitVec n × State :=
  ((Config.draw s.draws).setWidth n, { s with draws := s.draws + 1 })

/-! ### Frame buffer -/

/-- What an unlisted cell reads as: its reset content (20_memory.md rule R77, 10_state.md rule R46). -/
def Memory.unlisted (base : Vector Byte 32) (a : Nat) : Byte :=
  if h : a < 32 then base[a] else 0

/-- The byte of cell `a`: the listed one, else the reset content. -/
def Memory.cell (base : Vector Byte 32) (m : List Host.Cell) (a : Nat) : Byte :=
  match m.find? (fun c => c.1 == a) with
  | some c => c.2
  | none => Memory.unlisted base a

/-- Puts a cell before the first one of a larger index. -/
def Memory.insert (a : Nat) (v : Byte) : List Host.Cell → List Host.Cell
  | [] => [(a, v)]
  | c :: m => if a < c.1 then (a, v) :: c :: m else c :: Memory.insert a v m

/-- The cells after `v` is written at `a`: the entry of `a` goes, and comes back only if `v` is not its reset
content, so that equal frames are equal lists (assumption log 16). -/
def Memory.store (base : Vector Byte 32) (m : List Host.Cell) (a : Nat) (v : Byte) : List Host.Cell :=
  if v = Memory.unlisted base a then m.filter (fun c => c.1 != a)
  else Memory.insert a v (m.filter (fun c => c.1 != a))

/-- Indices rise strictly from at least `low`, each below 32, and no entry equals its reset content. -/
def Memory.wfFrom (base : Vector Byte 32) (low : Nat) : List Host.Cell → Bool
  | [] => true
  | c :: m =>
    decide (low ≤ c.1) && decide (c.1 < 32) && decide (c.2 ≠ Memory.unlisted base c.1) && Memory.wfFrom base (c.1 + 1) m

/-- The canonical form of the frame buffer (assumption log 16). -/
def Memory.wf (base : Vector Byte 32) (m : List Host.Cell) : Bool :=
  Memory.wfFrom base 0 m

/-- `MemRead(a, 1)` (20_memory.md rule R65); no cell exists outside `0 .. 31` (rule R67). -/
def memRead (s : State) (a : Nat) : Option Byte :=
  if a < frameLength then some (Memory.cell s.cfg.fbReset s.fb a) else none

/-- `MemWrite(a, 1, v)` (20_memory.md rule R65). -/
def memWrite (a : Nat) (v : Byte) (s : State) : Result :=
  if a < frameLength then .next { s with fb := Memory.store s.cfg.fbReset s.fb a v } else .fault .noSuchCell

/-! ### Transport -/

/-- `issue(rs, b)` (42_transport.md rule R147): the word `{rs, 0, b}` goes on the pins. It needs `TS = IDLE`; a
violation is a refusal. -/
def issue (rs : Bool) (b : Byte) (s : State) : Result :=
  if s.ts = .idle then .next { s with tw := BitVec.ofBool rs ++ 0#1 ++ b, ts := .setup }
  else .refused .transportBusy

/-- Completes a transaction that is settling; in any other phase nothing changes (42_transport.md rule R151). -/
def completeTransfer (s : State) : State :=
  if s.ts = .settle then { s with ts := .idle } else s

/-- A wait operation (42_transport.md rule R150): `k` happens when `TS = IDLE`; until then the running context waits
and nothing changes (assumption log 10). -/
def whenIdle (s : State) (k : Result) : Result :=
  if s.ts = .idle then k else .next s

/-! ### Reset -/

/-- The registers 10_state.md rule R46 calls unspecified receive free values, one each. -/
def drawUnspecified (s : State) : State :=
  { s with
    cmdSpeed := (Config.draw s.draws).setWidth 16
    measSpeed := Config.draw (s.draws + 1)
    tAdc := (Config.draw (s.draws + 2)).setWidth 16
    tPulses := (Config.draw (s.draws + 3)).setWidth 16
    tSel := ((Config.draw (s.draws + 4)).setWidth 3).toFin
    tByte := (Config.draw (s.draws + 5)).setWidth 8
    draws := s.draws + 6 }

/-- Every other register and cell takes its reset value (rule R46), reset is active, and both traces start anew
(70_reset_and_hazards.md rule R260). The parameters, the `adc` level and the turns to come are not the block's. -/
def clearRegisters (s : State) : State :=
  { s with
    rstActive := true
    duty := s.cfg.dutyReset
    pulseCnt := 0
    hpc := ⟨0, 0, 0, 0⟩
    initMs := 0
    initDone := false
    cursor := 0
    sampleCnt := 0
    ien := false
    ienSave := false
    pend := ⟨false, false, false⟩
    act := ⟨false, false, false⟩
    ovr := ⟨false, false, false⟩
    ts := .idle
    tw := 0
    fb := []
    lcdTrace := []
    dutyTrace := [] }

/-- The assignment of `EV.RST` (70_reset_and_hazards.md rule R260). -/
def resetRegisters (s : State) : State :=
  drawUnspecified (clearRegisters s)

/-- The first vector without `RST` releases reset (70_reset_and_hazards.md rule R261). -/
def releaseReset (s : State) : State :=
  { s with rstActive := false }

end Sys2Proof.Machine
end

