-- ==== Sys2Proof/Machine/Arbiter.lean ====
section
/-! DEFINITION. Dispatch, return, the background and the critical section (45_scheduler.md rules R208 to R214). -/

namespace Sys2Proof.Machine

/-- `DISPATCH.FAST` (rule R208). -/
def execDispatchFast (s : State) : Result := .next (enterHandler .fast s)

/-- `DISPATCH.MED` (rule R208). -/
def execDispatchMed (s : State) : Result := .next (enterHandler .med s)

/-- `DISPATCH.CTRL` (rule R208). -/
def execDispatchCtrl (s : State) : Result := .next (enterHandler .ctrl s)

/-- `RET.FAST` (rule R209). -/
def execRetFast (s : State) : Result := .next (leaveHandler .fast s)

/-- `RET.MED` (rule R209). -/
def execRetMed (s : State) : Result := .next (leaveHandler .med s)

/-- `RET.CTRL` (rule R209). -/
def execRetCtrl (s : State) : Result := .next (leaveHandler .ctrl s)

/-- `BG.START` (rule R211). The machine step never takes it by itself: it is enabled only by `EV.START`. -/
def execBgStart (s : State) : Result := .next (startBackground s)

/-- `BG.IDLE` (rule R214). -/
def execBgIdle (s : State) : Result := .next (s.setStep .bg 1)

/-- `CS.ENTER` (rule R212). -/
def execCsEnter (s : State) : Result :=
  .next ({ s with ienSave := s.ien, ien := false }.setStep .ctrl 3)

/-- `CS.EXIT` (rule R213). -/
def execCsExit (s : State) : Result :=
  .next ({ s with ien := s.ienSave }.setStep .ctrl 5)

end Sys2Proof.Machine
end

