-- ==== Sys2Proof/Machine/Operands.lean ====
section
/-! DEFINITION. The values the operations compute: the arithmetic of 00_scope.md rule R8, the schedule lookup, the
frame-buffer multiplexer, the two speeds, the frame cells, the duty correction, and the output pins. -/

namespace Sys2Proof.Machine

/-! ### Arithmetic (rule R8) -/

/-- `fdiv(a, b)`: the floor of `a / b`. -/
def fdiv (a b : Nat) : Nat := a / b

/-- `tdiv(a, b)` for `b > 0`: the quotient truncated toward zero. -/
def tdiv (a : Int) (b : Nat) : Int :=
  if 0 ≤ a then (fdiv a.toNat b : Int) else -(fdiv (-a).toNat b : Int)

/-- `clamp(x, lo, hi)`. -/
def clamp (x lo hi : Nat) : Nat :=
  if x < lo then lo else if hi < x then hi else x

/-! ### Init schedule (20_memory.md rule R64) -/

/-- The indices of the schedule. -/
def scheduleIndices : List (Fin 8) := [0, 1, 2, 3, 4, 5, 6, 7]

/-- The entry whose tick count is `ms`, if there is one. -/
def scheduleMatch (p : Params) (ms : BitVec 16) : Option (Fin 8) :=
  scheduleIndices.find? (fun i => p.schedT[i] == ms)

/-- `SCHED_CMD[i]`: four function sets, then display off, display clear, entry mode set, display on. -/
def scheduleCommand (p : Params) (i : Fin 8) : Byte :=
  #v[p.cmdFunctionSet, p.cmdFunctionSet, p.cmdFunctionSet, p.cmdFunctionSet,
     p.cmdDisplayOff, p.cmdDisplayClear, p.cmdEntryMode, p.cmdDisplayOn][i]

/-! ### Frame-buffer multiplexer (41_display_refresh.md rule R138) -/

/-- The select of the multiplexer: the issuing operation. -/
inductive MuxSelect where
  | iniCmd | rfrHome | rfrLine2 | rfrChar
deriving DecidableEq, Repr

/-- The register-select value and the byte handed to `issue`; none when the frame cell does not exist. -/
def muxOutput (sel : MuxSelect) (s : State) : Option (Bool × Byte) :=
  match sel with
  | .iniCmd => some (false, scheduleCommand s.cfg s.tSel)
  | .rfrHome => some (false, s.cfg.cmdHome)
  | .rfrLine2 => some (false, s.cfg.cmdLine2)
  | .rfrChar => (memRead s s.cursor.val).map fun b => (true, b)

/-- Issues what the multiplexer shows for `sel`. -/
def issueSelected (sel : MuxSelect) (s : State) : Result :=
  match muxOutput sel s with
  | some (rs, b) => issue rs b s
  | none => .fault .noSuchCell

/-! ### Speeds (43_control_loop.md rules R162 and R165) -/

/-- The scaled analog reading, before the clamp. -/
def scaled (p : Params) (a : Nat) : Nat :=
  match p.targetRound with
  | .nearestHalfUp => fdiv (2 * a * p.maxRpm + p.fullScale) (2 * p.fullScale)
  | .truncate => fdiv (a * p.maxRpm) p.fullScale

/-- The commanded speed of an analog reading. -/
def commandedSpeed (p : Params) (a : Nat) : Nat :=
  clamp (scaled p a) p.minRpm p.maxRpm

/-- The measured speed of a pulse count. -/
def measuredSpeed (p : Params) (n : Nat) : Nat :=
  fdiv (n * 60) p.windowConst

/-! ### Frame cells (43_control_loop.md rules R166 and R167, 30_encoding.md rule R92) -/

/-- `digit(v, k)`: decimal digit `k` of a four-digit field, `k = 0` the thousands. -/
def digit (v k : Nat) : Nat :=
  fdiv v (10 ^ (3 - k)) % 10

/-- The character code of a digit: `0x30 + d` (20_memory.md rule R63). -/
def digitCode (d : Nat) : Byte :=
  BitVec.ofNat 8 (0x30 + d)

/-- Digit cell `k` of the measured speed: above 9999 a free byte, drawn anew at each write (rule R167). -/
def measuredCell (k : Nat) (s : State) : Byte × State :=
  if s.measSpeed.toNat ≤ 9999 then (digitCode (digit s.measSpeed.toNat k), s) else draw 8 s

/-- The byte `CTL.FMT i` writes, and the state after any free value it draws. -/
def formatCell (i : Fin 32) (s : State) : Byte × State :=
  if i.val ≤ 11 ∨ (16 ≤ i.val ∧ i.val ≤ 27) then (textTemplate[i], s)
  else if i.val ≤ 15 then (digitCode (digit s.cmdSpeed.toNat (i.val - 12)), s)
  else measuredCell (i.val - 28) s

/-! ### Duty correction (43_control_loop.md rule R168) -/

/-- The new duty from the commanded speed `t`, the measured speed `m` and the old duty: the first of the three
branches whose condition holds, modulo 256. -/
def correctedDuty (p : Params) (t m : Nat) (d : Byte) : Byte :=
  let d' : Int :=
    if p.minRpm ≤ m ∧ m ≤ p.maxRpm then (d.toNat : Int) - tdiv ((t : Int) - (m : Int)) p.maxRpm * 255
    else if m ≤ p.minRpm then (d.toNat : Int) - 1
    else (d.toNat : Int) + 1
  BitVec.ofNat 8 (d' % 256).toNat

/-! ### Output ports (10_state.md rule R22, 42_transport.md rule R146) -/

/-- The output pins. -/
structure Pins where
  duty : Byte
  initDone : Bool
  lcdRs : Bool
  lcdRw : Bool
  lcdE : Bool
  lcdD : Byte
deriving DecidableEq, Repr

/-- The pins are driven continuously from `DUTY`, `INIT_DONE`, `TW` and `TS`; `lcd_e = 1` exactly when `TS = EHI`
(10_state.md rule R39). -/
def State.pins (s : State) : Pins where
  duty := s.duty
  initDone := s.initDone
  lcdRs := s.tw[9]
  lcdRw := s.tw[8]
  lcdE := decide (s.ts = .ehi)
  lcdD := s.tw.extractLsb' 0 8

end Sys2Proof.Machine
end

