-- ==== Sys2Proof/Machine/Control.lean ====
section
/-! DEFINITION. The Speed Control Loop, context `CTRL` (43_control_loop.md rules R161 to R168). -/

namespace Sys2Proof.Machine

/-- `SAMPLE_CNT + 1` modulo `2^SAMPLE_CNT_WIDTH` (rule R161). -/
def nextSample (s : State) : Nat :=
  (s.sampleCnt.toNat + 1) % 2 ^ s.cfg.sampleWidth

/-- `CTL.DIV` (rule R161): counts, then compares for equality; cleared on a match only with `DIV_RELOAD`. -/
def execCtlDiv (s : State) : Result :=
  if nextSample s = s.cfg.kDiv then
    .next ({ s with sampleCnt := if s.cfg.divReload then 0 else BitVec.ofNat 32 (nextSample s) }.setStep .ctrl 1)
  else .next ({ s with sampleCnt := BitVec.ofNat 32 (nextSample s) }.setStep .ctrl 7)

/-- `CTL.TARGET` (rule R162): one sample of `adc`, scaled and clamped. -/
def execCtlTarget (s : State) : Result :=
  .next ({ s with tAdc := s.adc, cmdSpeed := BitVec.ofNat 16 (commandedSpeed s.cfg s.adc.toNat) }.setStep .ctrl 2)

/-- `CTL.PULSES` (rule R164): read and clear in one operation. -/
def execCtlPulses (s : State) : Result :=
  .next ({ s with tPulses := s.pulseCnt, pulseCnt := 0 }.setStep .ctrl 4)

/-- `CTL.MEASURE` (rule R165). -/
def execCtlMeasure (s : State) : Result :=
  .next ({ s with measSpeed := BitVec.ofNat 32 (measuredSpeed s.cfg s.tPulses.toNat) }.setStep .ctrl 32)

/-- The step after `CTL.FMT i` (rule R166): the next `CTL.FMT`, or `CTL.DUTY` after the last. -/
def formatSuccessor (i : BitVec 5) : BitVec 6 :=
  if i.toNat < 31 then BitVec.ofNat 6 (33 + i.toNat) else 6

/-- `CTL.FMT i` (rule R166): writes one cell of the frame. -/
def execCtlFmt (i : BitVec 5) (s : State) : Result :=
  andThen (memWrite i.toNat (formatCell i.toFin s).1 (formatCell i.toFin s).2) fun t =>
    .next (t.setStep .ctrl (formatSuccessor i))

/-- `CTL.DUTY` (rule R168): one of three branches, and an entry of `DUTY_TRACE` in each. -/
def execCtlDuty (s : State) : Result :=
  let d := correctedDuty s.cfg s.cmdSpeed.toNat s.measSpeed.toNat s.duty
  .next ({ s with duty := d, dutyTrace := s.dutyTrace ++ [d] }.setStep .ctrl 7)

end Sys2Proof.Machine
end

