-- ==== Sys2Proof/Machine/Flags.lean ====
section
/-! DEFINITION. The block's only flags, the sticky overrun marks (10_state.md rules R31 and R38). -/

namespace Sys2Proof.Machine

/-- `OVR[src]` after a tick of `src`: set when the earlier tick is still pending, otherwise as it was; never
cleared here (45_scheduler.md rule R207). -/
def overrunAfterTick (src : Source) (s : State) : Bool :=
  s.pend.get src || s.ovr.get src

/-- A tick of `src` is latched, or marked as lost (45_scheduler.md rule R207); `IEN` and the running context do not
matter. -/
def latchTick (src : Source) (s : State) : State :=
  (s.setOvr src (overrunAfterTick src s)).setPend src true

end Sys2Proof.Machine
end

