-- ==== Sys2Proof/Machine/Events.lean ====
section
/-! DEFINITION. The seven input events (30_encoding.md rule R82). -/

namespace Sys2Proof.Machine

/-- `EV.TICKF` (45_scheduler.md rule R207). -/
def execEvTickF (s : State) : Result := .next (latchTick .fast s)

/-- `EV.TICKM` (45_scheduler.md rule R207). -/
def execEvTickM (s : State) : Result := .next (latchTick .med s)

/-- `EV.TICKC` (45_scheduler.md rule R207). -/
def execEvTickC (s : State) : Result := .next (latchTick .ctrl s)

/-- `EV.PULSE` (44_dividers_counters.md rule R193): counted modulo 2^16, and only after the handover. -/
def execEvPulse (s : State) : Result :=
  .next (if s.initDone then { s with pulseCnt := s.pulseCnt + 1 } else s)

/-- `EV.READY` (42_transport.md rule R151): performs `TRN.DONE` when `TS = SETTLE`, and is otherwise ignored and not
remembered. -/
def execEvReady (s : State) : Result := .next (completeTransfer s)

/-- `EV.START` (45_scheduler.md rule R211): performs `BG.START` when `HPC[BG] = 0`, and is otherwise ignored. -/
def execEvStart (s : State) : Result := .next (startBackground s)

/-- `EV.RST` (70_reset_and_hazards.md rule R260): accepted in every state. -/
def execEvRst (s : State) : Result := .next (resetRegisters s)

end Sys2Proof.Machine
end

