-- ==== Sys2Proof/Machine/Init.lean ====
section
/-! DEFINITION. The Display Init Sequencer, context `FAST` (40_display_init.md rules R111 to R113). -/

namespace Sys2Proof.Machine

/-- `INI.TICK` (rule R111): while init is not complete, counts the tick and looks the new count up in the schedule.
`INIT_MS + 1` past 16 bits, which the rule excludes, is refused (00_scope.md rule R11). -/
def execIniTick (s : State) : Result :=
  if s.initDone then .next (s.setStep .fast 3)
  else if s.initMs.toNat + 1 < 2 ^ 16 then
    match scheduleMatch s.cfg (s.initMs + 1) with
    | some i => .next ({ s with initMs := s.initMs + 1, tSel := i }.setStep .fast 1)
    | none => .next ({ s with initMs := s.initMs + 1 }.setStep .fast 3)
  else .refused .widthExceeded

/-- `INI.CMD` (rule R112): issues the command of the matched entry. -/
def execIniCmd (s : State) : Result :=
  andThen (issueSelected .iniCmd s) fun t => .next (t.setStep .fast 2)

/-- `INI.CMDW` (rule R113): after the last command's transaction, init is complete. -/
def execIniCmdw (s : State) : Result :=
  whenIdle s (.next ({ s with initDone := decide (s.tSel = 7) || s.initDone }.setStep .fast 3))

end Sys2Proof.Machine
end

