-- ==== Sys2Proof/Machine/Refresh.lean ====
section
/-! DEFINITION. The Display Refresh Sequencer, context `MED` (41_display_refresh.md rules R131 to R137). -/

namespace Sys2Proof.Machine

/-- The step `RFR.SEL` selects (rule R131). -/
def refreshBranch (s : State) : BitVec 6 :=
  if s.initDone = false then 7
  else if s.cursor.val = endIndex then 1
  else if s.cursor.val = line2Index then 3
  else 5

/-- `RFR.SEL` (rule R131). -/
def execRfrSel (s : State) : Result := .next (s.setStep .med (refreshBranch s))

/-- `RFR.HOME` (rule R132). -/
def execRfrHome (s : State) : Result :=
  andThen (issueSelected .rfrHome s) fun t => .next (t.setStep .med 2)

/-- `RFR.HOMEW` (rule R133). -/
def execRfrHomew (s : State) : Result :=
  whenIdle s (.next ({ s with cursor := 0 }.setStep .med 7))

/-- `RFR.LINE2` (rule R134). -/
def execRfrLine2 (s : State) : Result :=
  andThen (issueSelected .rfrLine2 s) fun t => .next (t.setStep .med 4)

/-- `RFR.LINE2W` (rule R135). -/
def execRfrLine2w (s : State) : Result :=
  whenIdle s (.next (s.setStep .med 5))

/-- `RFR.CHAR` (rule R136): reads the cell at `CURSOR` into `T_BYTE` and issues it as data. -/
def execRfrChar (s : State) : Result :=
  match memRead s s.cursor.val with
  | some b => andThen (issueSelected .rfrChar { s with tByte := b }) fun t => .next (t.setStep .med 6)
  | none => .fault .noSuchCell

/-- `RFR.CHARW` (rule R137): advances the cursor, 31 to 32 without a wrap. `CURSOR + 1` past 32, which the rule
excludes, is refused (00_scope.md rule R11). -/
def execRfrCharw (s : State) : Result :=
  whenIdle s
    (if h : s.cursor.val + 1 < 33 then .next ({ s with cursor := ⟨s.cursor.val + 1, h⟩ }.setStep .med 7)
     else .refused .widthExceeded)

end Sys2Proof.Machine
end

