-- ==== Sys2Proof/Machine/Transport.lean ====
section
/-! DEFINITION. The phases of the transport sequencer (42_transport.md rules R148 to R151). -/

namespace Sys2Proof.Machine

/-- `TRN.EHI` (rule R148): `lcd_e` rises. -/
def execTrnEhi (s : State) : Result := .next { s with ts := .ehi }

/-- `TRN.ELO` (rule R149): `lcd_e` falls and the panel latches `{lcd_rs, lcd_d}`. -/
def execTrnElo (s : State) : Result :=
  .next { s with ts := .settle, lcdTrace := s.lcdTrace ++ [(s.tw[9], s.tw.extractLsb' 0 8)] }

/-- `TRN.DONE` (rule R151): the transaction is complete. -/
def execTrnDone (s : State) : Result := .next (completeTransfer s)

end Sys2Proof.Machine
end

