-- ==== Sys2Proof/Machine/Words.lean ====
section
/-! DEFINITION. The transport words (30_encoding.md rule R91): the meaning of a word is its emission,
`issue(rs, b)` (40_display_init.md rules R114 to R121, 41_display_refresh.md rules R132, R134 and R136,
30_encoding.md rule R101). DEDUCED (assumption log 17). -/

namespace Sys2Proof.Machine

/-- `LCD.FUNCSET` (rules R114 to R117). -/
def execLcdFuncset (s : State) : Result := issue false s.cfg.cmdFunctionSet s

/-- `LCD.DISPOFF` (rule R118). -/
def execLcdDispoff (s : State) : Result := issue false s.cfg.cmdDisplayOff s

/-- `LCD.CLEAR` (rule R119). -/
def execLcdClear (s : State) : Result := issue false s.cfg.cmdDisplayClear s

/-- `LCD.ENTRYMODE` (rule R120). -/
def execLcdEntrymode (s : State) : Result := issue false s.cfg.cmdEntryMode s

/-- `LCD.DISPON` (rule R121). -/
def execLcdDispon (s : State) : Result := issue false s.cfg.cmdDisplayOn s

/-- `LCD.LINE2` (rule R134). -/
def execLcdLine2 (s : State) : Result := issue false s.cfg.cmdLine2 s

/-- `LCD.HOME` (rule R132). -/
def execLcdHome (s : State) : Result := issue false s.cfg.cmdHome s

/-- `LCD.DATA d` (rule R136). -/
def execLcdData (d : Byte) (s : State) : Result := issue true d s

end Sys2Proof.Machine
end

