-- ==== Sys2Proof/Syntax.lean ====
section
/-! DEFINITION. The operations of the block: one constructor per row of `opcode_table.json`. -/

namespace Sys2Proof

/-- An operation (00_scope.md rule R9): an input event, an arbiter step, a sequencer step, a transport phase, or
the emission of a transport word. The two operands are the index of `CTL.FMT i` (30_encoding.md rule R88) and the
byte of `LCD.DATA d` (rule R91). -/
inductive Instr where
  /-- `EV.TICKF`: fast tick (R207). -/
  | evTickF
  /-- `EV.TICKM`: medium tick (R207). -/
  | evTickM
  /-- `EV.TICKC`: control tick (R207). -/
  | evTickC
  /-- `EV.PULSE`: encoder pulse (R193). -/
  | evPulse
  /-- `EV.READY`: panel ready (R151). -/
  | evReady
  /-- `EV.START`: end of the external bring-up (R211). -/
  | evStart
  /-- `EV.RST`: reset (R260). -/
  | evRst
  /-- `DISPATCH.FAST` (R208). -/
  | dispatchFast
  /-- `DISPATCH.MED` (R208). -/
  | dispatchMed
  /-- `DISPATCH.CTRL` (R208). -/
  | dispatchCtrl
  /-- `BG.START` (R211). -/
  | bgStart
  /-- `BG.IDLE` (R214). -/
  | bgIdle
  /-- `CTL.DIV` (R161). -/
  | ctlDiv
  /-- `CTL.TARGET` (R162). -/
  | ctlTarget
  /-- `CS.ENTER` (R212). -/
  | csEnter
  /-- `CTL.PULSES` (R164). -/
  | ctlPulses
  /-- `CS.EXIT` (R213). -/
  | csExit
  /-- `CTL.MEASURE` (R165). -/
  | ctlMeasure
  /-- `CTL.FMT i` (R166). -/
  | ctlFmt (i : BitVec 5)
  /-- `CTL.DUTY` (R168). -/
  | ctlDuty
  /-- `RET.CTRL` (R209). -/
  | retCtrl
  /-- `RFR.SEL` (R131). -/
  | rfrSel
  /-- `RFR.HOME` (R132). -/
  | rfrHome
  /-- `RFR.HOMEW` (R133). -/
  | rfrHomew
  /-- `RFR.LINE2` (R134). -/
  | rfrLine2
  /-- `RFR.LINE2W` (R135). -/
  | rfrLine2w
  /-- `RFR.CHAR` (R136). -/
  | rfrChar
  /-- `RFR.CHARW` (R137). -/
  | rfrCharw
  /-- `RET.MED` (R209). -/
  | retMed
  /-- `INI.TICK` (R111). -/
  | iniTick
  /-- `INI.CMD` (R112). -/
  | iniCmd
  /-- `INI.CMDW` (R113). -/
  | iniCmdw
  /-- `RET.FAST` (R209). -/
  | retFast
  /-- `TRN.EHI` (R148). -/
  | trnEhi
  /-- `TRN.ELO` (R149). -/
  | trnElo
  /-- `TRN.DONE` (R151). -/
  | trnDone
  /-- `LCD.FUNCSET` (R114 to R117). -/
  | lcdFuncset
  /-- `LCD.DISPOFF` (R118). -/
  | lcdDispoff
  /-- `LCD.CLEAR` (R119). -/
  | lcdClear
  /-- `LCD.ENTRYMODE` (R120). -/
  | lcdEntrymode
  /-- `LCD.DISPON` (R121). -/
  | lcdDispon
  /-- `LCD.LINE2` (R134). -/
  | lcdLine2
  /-- `LCD.HOME` (R132). -/
  | lcdHome
  /-- `LCD.DATA d` (R136). -/
  | lcdData (d : Byte)
deriving DecidableEq, Repr

end Sys2Proof
end

