-- ==== Sys2Proof/Machine/Dispatch.lean ====
section
/-! DEFINITION. The meaning of every operation: one arm per constructor of `Instr`. -/

namespace Sys2Proof.Machine

/-- The effect of an operation (00_scope.md rule R9). Whether it is selected and enabled is decided by the step
(rule R13), not here (assumption log 9). -/
def exec (i : Instr) (s : State) : Host.Outcome State Fault Refusal :=
  match i with
  | .evTickF => Sys2Proof.Machine.execEvTickF s
  | .evTickM => Sys2Proof.Machine.execEvTickM s
  | .evTickC => Sys2Proof.Machine.execEvTickC s
  | .evPulse => Sys2Proof.Machine.execEvPulse s
  | .evReady => Sys2Proof.Machine.execEvReady s
  | .evStart => Sys2Proof.Machine.execEvStart s
  | .evRst => Sys2Proof.Machine.execEvRst s
  | .dispatchFast => Sys2Proof.Machine.execDispatchFast s
  | .dispatchMed => Sys2Proof.Machine.execDispatchMed s
  | .dispatchCtrl => Sys2Proof.Machine.execDispatchCtrl s
  | .bgStart => Sys2Proof.Machine.execBgStart s
  | .bgIdle => Sys2Proof.Machine.execBgIdle s
  | .ctlDiv => Sys2Proof.Machine.execCtlDiv s
  | .ctlTarget => Sys2Proof.Machine.execCtlTarget s
  | .csEnter => Sys2Proof.Machine.execCsEnter s
  | .ctlPulses => Sys2Proof.Machine.execCtlPulses s
  | .csExit => Sys2Proof.Machine.execCsExit s
  | .ctlMeasure => Sys2Proof.Machine.execCtlMeasure s
  | .ctlFmt k => Sys2Proof.Machine.execCtlFmt k s
  | .ctlDuty => Sys2Proof.Machine.execCtlDuty s
  | .retCtrl => Sys2Proof.Machine.execRetCtrl s
  | .rfrSel => Sys2Proof.Machine.execRfrSel s
  | .rfrHome => Sys2Proof.Machine.execRfrHome s
  | .rfrHomew => Sys2Proof.Machine.execRfrHomew s
  | .rfrLine2 => Sys2Proof.Machine.execRfrLine2 s
  | .rfrLine2w => Sys2Proof.Machine.execRfrLine2w s
  | .rfrChar => Sys2Proof.Machine.execRfrChar s
  | .rfrCharw => Sys2Proof.Machine.execRfrCharw s
  | .retMed => Sys2Proof.Machine.execRetMed s
  | .iniTick => Sys2Proof.Machine.execIniTick s
  | .iniCmd => Sys2Proof.Machine.execIniCmd s
  | .iniCmdw => Sys2Proof.Machine.execIniCmdw s
  | .retFast => Sys2Proof.Machine.execRetFast s
  | .trnEhi => Sys2Proof.Machine.execTrnEhi s
  | .trnElo => Sys2Proof.Machine.execTrnElo s
  | .trnDone => Sys2Proof.Machine.execTrnDone s
  | .lcdFuncset => Sys2Proof.Machine.execLcdFuncset s
  | .lcdDispoff => Sys2Proof.Machine.execLcdDispoff s
  | .lcdClear => Sys2Proof.Machine.execLcdClear s
  | .lcdEntrymode => Sys2Proof.Machine.execLcdEntrymode s
  | .lcdDispon => Sys2Proof.Machine.execLcdDispon s
  | .lcdLine2 => Sys2Proof.Machine.execLcdLine2 s
  | .lcdHome => Sys2Proof.Machine.execLcdHome s
  | .lcdData d => Sys2Proof.Machine.execLcdData d s

end Sys2Proof.Machine
end

