-- ==== Sys2Proof/WellFormed.lean ====
section
/-! DEFINITION. What is checked before a rule applies: the constraints of the parameter record
(00_scope.md rule R7), and which transport words a given record lets the panel tell apart (30_encoding.md
rule R91). The operand fields of `Instr` need no check: their types admit exactly the encoded values. -/

namespace Sys2Proof

/-- `0 ≤ MIN_RPM ≤ MAX_RPM` and `1 ≤ MAX_RPM ≤ 9999`. -/
def Params.speedsOk (p : Params) : Bool :=
  decide (p.minRpm ≤ p.maxRpm) && decide (1 ≤ p.maxRpm) && decide (p.maxRpm ≤ 9999)

/-- `1 ≤ SAMPLE_CNT_WIDTH ≤ 32` and `1 ≤ K_DIV < 2^SAMPLE_CNT_WIDTH`. -/
def Params.dividerOk (p : Params) : Bool :=
  decide (1 ≤ p.sampleWidth) && decide (p.sampleWidth ≤ 32) && decide (1 ≤ p.kDiv) && decide (p.kDiv < 2 ^ p.sampleWidth)

/-- `1 ≤ FULL_SCALE ≤ 65535` and `1 ≤ WINDOW_CONST ≤ 65535`. -/
def Params.scalesOk (p : Params) : Bool :=
  decide (1 ≤ p.fullScale) && decide (p.fullScale ≤ 65535) && decide (1 ≤ p.windowConst) && decide (p.windowConst ≤ 65535)

/-- `1 ≤ SCHED_T[0] < SCHED_T[1] < ... < SCHED_T[7]`; `SCHED_T[7] ≤ 65535` holds by its width. -/
def Params.scheduleOk (p : Params) : Bool :=
  decide (1 ≤ p.schedT[0].toNat) && decide (p.schedT[0].toNat < p.schedT[1].toNat) &&
  decide (p.schedT[1].toNat < p.schedT[2].toNat) && decide (p.schedT[2].toNat < p.schedT[3].toNat) &&
  decide (p.schedT[3].toNat < p.schedT[4].toNat) && decide (p.schedT[4].toNat < p.schedT[5].toNat) &&
  decide (p.schedT[5].toNat < p.schedT[6].toNat) && decide (p.schedT[6].toNat < p.schedT[7].toNat)

/-- The constraints of rule R7, the preconditions of every rule; the byte and Boolean parameters have none. -/
def Params.valid (p : Params) : Bool :=
  p.speedsOk && p.dividerOk && p.scalesOk && p.scheduleOk

/-- The command byte a command word carries (30_encoding.md rule R91); `none` for every other operation. -/
def Instr.commandByte (p : Params) : Instr → Option Byte
  | .lcdFuncset => some p.cmdFunctionSet
  | .lcdDispoff => some p.cmdDisplayOff
  | .lcdClear => some p.cmdDisplayClear
  | .lcdEntrymode => some p.cmdEntryMode
  | .lcdDispon => some p.cmdDisplayOn
  | .lcdLine2 => some p.cmdLine2
  | .lcdHome => some p.cmdHome
  | _ => none

/-- The seven command words, in the order of the table of rule R91. -/
def commandWords : List Instr :=
  [.lcdFuncset, .lcdDispoff, .lcdClear, .lcdEntrymode, .lcdDispon, .lcdLine2, .lcdHome]

/-- A command word is well formed under a record when no earlier command of rule R91 carries the same byte ("if two
command parameters are given the same byte the words cannot be told apart on the bus"); every other operation is. -/
def Instr.wf (p : Params) (i : Instr) : Bool :=
  match i.commandByte p with
  | none => true
  | some b => (commandWords.takeWhile (fun j => decide (j ≠ i))).all (fun j => decide (j.commandByte p ≠ some b))

end Sys2Proof
end

