-- ==== Sys2Proof/Decode.lean ====
section
/-! DEFINITION. The five formats of 30_encoding.md (rules R80 to R91), their decoders, the encoder, and the
host's numbering of the table's words. -/

namespace Sys2Proof

/-- An encoded operation: its format (rule R80) and its bits. No mode bit changes a format (rule R99), and the bits
do not say which format they are in; the decoder of each format is a different agent. -/
inductive Code where
  /-- Event vector, decoded by the input stage. -/
  | ev (w : BitVec 7)
  /-- Arbiter vector, decoded by the priority arbiter. -/
  | arb (w : BitVec 7)
  /-- State code, decoded by the sequencers. -/
  | st (w : BitVec 8)
  /-- Transport phase, decoded by the transport sequencer. -/
  | tp (w : BitVec 2)
  /-- Transport word, decoded by the display panel. -/
  | tw (w : BitVec 10)
deriving DecidableEq, Repr

/-- Why a code selects no operation. -/
inductive DecodeError where
  /-- An event vector with no event, or with several at once (rule R83): not one operation. -/
  | notOneEvent
  /-- An arbiter vector under which the running context continues (rule R85). -/
  | noDispatch
  /-- A state code outside the table of rule R86 (rule R96). -/
  | unreachableState
  /-- The phase `IDLE`, in which the transport sequencer does nothing (rule R89). -/
  | idlePhase
  /-- A transport word with `RW = 1`, never emitted (rule R97). -/
  | readWord
  /-- A command word whose byte is none of the seven command parameters (rule R97). -/
  | unknownCommand
deriving DecidableEq, Repr

/-- The events of a vector in the order they take effect (rules R81 and R83): with `RST` set every other bit is
ignored; otherwise `START`, `PULSE`, `READY`, `TICKF`, `TICKM`, `TICKC`. -/
def decodeEvents (w : BitVec 7) : List Instr :=
  if w[6] then [.evRst]
  else
    (if w[5] then [.evStart] else []) ++ (if w[3] then [.evPulse] else []) ++
    (if w[4] then [.evReady] else []) ++ (if w[0] then [.evTickF] else []) ++
    (if w[1] then [.evTickM] else []) ++ (if w[2] then [.evTickC] else [])

/-- A vector that is one event. -/
def decodeEv (w : BitVec 7) : Except DecodeError Instr :=
  match decodeEvents w with
  | [i] => .ok i
  | _ => .error .notOneEvent

/-- The dispatch patterns of rule R85: `11mc0ab`, `101c00b` and `1001000`. -/
def decodeArb (w : BitVec 7) : Except DecodeError Instr :=
  if w &&& 0b1100100#7 = 0b1100000#7 then .ok .dispatchFast
  else if w &&& 0b1110110#7 = 0b1010000#7 then .ok .dispatchMed
  else if w = 0b1001000#7 then .ok .dispatchCtrl
  else .error .noDispatch

/-- The state codes other than `CTL.FMT`, as the table of rule R86 lists them. -/
def stateTable : List (BitVec 8 × Instr) :=
  [ (0b00000000#8, .bgStart), (0b00000001#8, .bgIdle),
    (0b01000000#8, .ctlDiv), (0b01000001#8, .ctlTarget), (0b01000010#8, .csEnter), (0b01000011#8, .ctlPulses),
    (0b01000100#8, .csExit), (0b01000101#8, .ctlMeasure), (0b01000110#8, .ctlDuty), (0b01000111#8, .retCtrl),
    (0b10000000#8, .rfrSel), (0b10000001#8, .rfrHome), (0b10000010#8, .rfrHomew), (0b10000011#8, .rfrLine2),
    (0b10000100#8, .rfrLine2w), (0b10000101#8, .rfrChar), (0b10000110#8, .rfrCharw), (0b10000111#8, .retMed),
    (0b11000000#8, .iniTick), (0b11000001#8, .iniCmd), (0b11000010#8, .iniCmdw), (0b11000011#8, .retFast) ]

/-- The state code (rule R86): `011iiiii` is `CTL.FMT i` with `i` unsigned (rule R88); a code outside the table is
unreachable (rule R96). -/
def decodeSt (w : BitVec 8) : Except DecodeError Instr :=
  if w.extractLsb' 5 3 = 0b011#3 then .ok (.ctlFmt (w.extractLsb' 0 5))
  else match stateTable.find? (fun row => row.1 == w) with
    | some row => .ok row.2
    | none => .error .unreachableState

/-- The transport phase (rule R89): `01` is `TRN.EHI`, `10` is `TRN.ELO`, `11` is `TRN.DONE`, and `00` is idle. -/
def decodeTp (w : BitVec 2) : Except DecodeError Instr :=
  if w = 0b01#2 then .ok .trnEhi
  else if w = 0b10#2 then .ok .trnElo
  else if w = 0b11#2 then .ok .trnDone
  else .error .idlePhase

/-- The transport word `{RS, RW, D[7:0]}` (rules R90 and R91): `RS = 1` is `LCD.DATA D`, `RS = 0` the first
command whose parameter equals the byte. -/
def decodeTw (p : Params) (w : BitVec 10) : Except DecodeError Instr :=
  if w[8] then .error .readWord
  else if w[9] then .ok (.lcdData (w.extractLsb' 0 8))
  else match commandWords.find? (fun j => decide (j.commandByte p = some (w.extractLsb' 0 8))) with
    | some j => .ok j
    | none => .error .unknownCommand

/-- The operation a code selects, or the name of the reason it selects none. -/
def decode (p : Params) : Code → Except DecodeError Instr
  | .ev w => decodeEv w
  | .arb w => decodeArb w
  | .st w => decodeSt w
  | .tp w => decodeTp w
  | .tw w => decodeTw p w

/-- The code of an operation; bits that do not matter are 0. The step codes are those of rule R86, the word bytes
the parameters of rule R91. -/
def encode (p : Params) : Instr → Code
  | .evTickF => .ev 0b0000001#7
  | .evTickM => .ev 0b0000010#7
  | .evTickC => .ev 0b0000100#7
  | .evPulse => .ev 0b0001000#7
  | .evReady => .ev 0b0010000#7
  | .evStart => .ev 0b0100000#7
  | .evRst => .ev 0b1000000#7
  | .dispatchFast => .arb 0b1100000#7
  | .dispatchMed => .arb 0b1010000#7
  | .dispatchCtrl => .arb 0b1001000#7
  | .bgStart => .st 0x00#8
  | .bgIdle => .st 0x01#8
  | .ctlDiv => .st 0x40#8
  | .ctlTarget => .st 0x41#8
  | .csEnter => .st 0x42#8
  | .ctlPulses => .st 0x43#8
  | .csExit => .st 0x44#8
  | .ctlMeasure => .st 0x45#8
  | .ctlFmt i => .st (0b011#3 ++ i)
  | .ctlDuty => .st 0x46#8
  | .retCtrl => .st 0x47#8
  | .rfrSel => .st 0x80#8
  | .rfrHome => .st 0x81#8
  | .rfrHomew => .st 0x82#8
  | .rfrLine2 => .st 0x83#8
  | .rfrLine2w => .st 0x84#8
  | .rfrChar => .st 0x85#8
  | .rfrCharw => .st 0x86#8
  | .retMed => .st 0x87#8
  | .iniTick => .st 0xC0#8
  | .iniCmd => .st 0xC1#8
  | .iniCmdw => .st 0xC2#8
  | .retFast => .st 0xC3#8
  | .trnEhi => .tp 0b01#2
  | .trnElo => .tp 0b10#2
  | .trnDone => .tp 0b11#2
  | .lcdFuncset => .tw (0b00#2 ++ p.cmdFunctionSet)
  | .lcdDispoff => .tw (0b00#2 ++ p.cmdDisplayOff)
  | .lcdClear => .tw (0b00#2 ++ p.cmdDisplayClear)
  | .lcdEntrymode => .tw (0b00#2 ++ p.cmdEntryMode)
  | .lcdDispon => .tw (0b00#2 ++ p.cmdDisplayOn)
  | .lcdLine2 => .tw (0b00#2 ++ p.cmdLine2)
  | .lcdHome => .tw (0b00#2 ++ p.cmdHome)
  | .lcdData d => .tw (0b10#2 ++ d)

/-- The first code of a list that selects an operation. -/
def firstDecoded (p : Params) : List Code → Option Instr
  | [] => none
  | c :: rest =>
    match decode p c with
    | .ok i => some i
    | .error _ => firstDecoded p rest

/-- The formats that a table word of `nbits` bits, in whole bytes, can be in: a transport word is the only format
wider than a byte. The table's word does not name its format; where several formats accept a byte, the order is the
state code (the only format of exactly 8 bits), the arbiter vector, the event vector, the transport phase.
DESIGN CHOICE (assumption log 18). -/
def tableCodes (nbits w : Nat) : List Code :=
  if nbits ≤ 8 then
    if w < 4 then [.st (.ofNat 8 w), .arb (.ofNat 7 w), .ev (.ofNat 7 w), .tp (.ofNat 2 w)]
    else if w < 128 then [.st (.ofNat 8 w), .arb (.ofNat 7 w), .ev (.ofNat 7 w)]
    else if w < 256 then [.st (.ofNat 8 w)]
    else []
  else if w < 1024 then [.tw (.ofNat 10 w)]
  else []

/-- The instruction the decoder reads from a table word, the command bytes being those of REF-EX, as in the table. -/
def decodeTableWord (nbits w : Nat) : Option Instr :=
  firstDecoded Params.refEx (tableCodes nbits w)

end Sys2Proof
end

