-- ==== Sys2Proof/Machine/Fetch.lean ====
section
/-! DEFINITION. What each agent decodes (30_encoding.md rules R80, R85, R86 and R89), which operations are enabled
(rule R87), and how an operation is placed where the next step takes it. -/

namespace Sys2Proof.Machine

/-! ### The vectors the agents decode -/

/-- `{IEN, PEND[FAST], PEND[MED], PEND[CTRL], ACT[FAST], ACT[MED], ACT[CTRL]}` (rule R85). -/
def arbVector (s : State) : BitVec 7 :=
  BitVec.ofBool s.ien ++ BitVec.ofBool s.pend.fast ++ BitVec.ofBool s.pend.med ++ BitVec.ofBool s.pend.ctrl ++
  BitVec.ofBool s.act.fast ++ BitVec.ofBool s.act.med ++ BitVec.ofBool s.act.ctrl

/-- The code of a context, which is also its priority (rule R84). -/
def Context.code : Context → BitVec 2
  | .bg => 0b00#2
  | .ctrl => 0b01#2
  | .med => 0b10#2
  | .fast => 0b11#2

/-- The context of a code (rule R84). -/
def Context.ofCode (c : BitVec 2) : Context :=
  if c = 0b01#2 then .ctrl
  else if c = 0b10#2 then .med
  else if c = 0b11#2 then .fast
  else .bg

/-- The state code `{ctx, HPC[ctx]}` of the running context (rule R86). -/
def stateCode (s : State) : BitVec 8 :=
  s.running.code ++ s.hpc.get s.running

/-- The code of a transport phase (rule R89). -/
def Phase.code : Phase → BitVec 2
  | .idle => 0b00#2
  | .setup => 0b01#2
  | .ehi => 0b10#2
  | .settle => 0b11#2

/-- The transport phase of a code (rule R89). -/
def Phase.ofCode (c : BitVec 2) : Phase :=
  if c = 0b01#2 then .setup
  else if c = 0b10#2 then .ehi
  else if c = 0b11#2 then .settle
  else .idle

/-- The operation of the machine step (00_scope.md rule R13): the dispatch the arbiter selects, else the operation at
the running context's step register. -/
def fetchMachine (s : State) : Except DecodeError Instr :=
  match decodeArb (arbVector s) with
  | .ok i => .ok i
  | .error _ => decodeSt (stateCode s)

/-- The operation of the transport sequencer's phase. -/
def fetchTransport (s : State) : Except DecodeError Instr :=
  decodeTp s.ts.code

/-! ### Enabledness (rule R87) -/

/-- Whether an operation that has been selected may happen without an event: `BG.START` and `TRN.DONE` happen only on
`EV.START` and `EV.READY`, and a wait operation only when `TS = IDLE` (42_transport.md rule R150). -/
def enabled (i : Instr) (s : State) : Bool :=
  match i with
  | .bgStart => false
  | .trnDone => false
  | .iniCmdw => decide (s.ts = .idle)
  | .rfrHomew => decide (s.ts = .idle)
  | .rfrLine2w => decide (s.ts = .idle)
  | .rfrCharw => decide (s.ts = .idle)
  | _ => true

/-- Whether the machine has a visible step: an enabled operation other than `BG.IDLE`, which changes nothing
(45_scheduler.md rule R214). -/
def machineReady (s : State) : Bool :=
  !s.rstActive &&
  match fetchMachine s with
  | .ok i => enabled i s && decide (i ≠ .bgIdle)
  | .error _ => true

/-- Whether the transport sequencer can go on by itself. -/
def transportReady (s : State) : Bool :=
  !s.rstActive &&
  match fetchTransport s with
  | .ok i => enabled i s
  | .error _ => false

/-- The block has no enabled machine step and no enabled transport phase other than one waiting for `EV.READY`: where
a run stops after an event (30_encoding.md rule R102). 95_test_vectors.md calls this quiescent too
(assumption log 25). -/
def atRest (s : State) : Bool :=
  !machineReady s && !transportReady s

/-- Quiescent: at rest, with no transaction in flight (10_state.md rule R43: with `TS` not `IDLE` a run is not
quiescent). -/
def quiescent (s : State) : Bool :=
  atRest s && decide (s.ts = .idle)

/-! ### Placing an operation -/

/-- Gives the next turn to `t`. -/
def State.nextTurn (s : State) (t : Turn) : State :=
  { s with agenda := t :: s.agenda }

/-- Makes an arbiter vector the current one. -/
def State.withArb (s : State) (w : BitVec 7) : State :=
  { s with
    rstActive := false
    ien := w[6]
    pend := { fast := w[5], med := w[4], ctrl := w[3] }
    act := { fast := w[2], med := w[1], ctrl := w[0] } }

/-- Makes `c` the running context, with nothing pending above it. -/
def State.withRunning (s : State) (c : Context) : State :=
  match c with
  | .bg => { s with rstActive := false, pend := ⟨false, false, false⟩, act := ⟨false, false, false⟩ }
  | .ctrl =>
    { s with
      rstActive := false
      pend := { s.pend with med := false, fast := false }
      act := { ctrl := true, med := false, fast := false } }
  | .med =>
    { s with
      rstActive := false
      pend := { s.pend with fast := false }
      act := { s.act with med := true, fast := false } }
  | .fast => { s with rstActive := false, act := { s.act with fast := true } }

/-- Makes a state code the current one. -/
def State.withStateCode (s : State) (w : BitVec 8) : State :=
  let c := Context.ofCode (w.extractLsb' 6 2)
  (s.withRunning c).setStep c (w.extractLsb' 0 6)

/-- Whether an operation needs the transport to be idle: the issuing and the wait operations (rule R87). -/
def needsIdle : Instr → Bool
  | .iniCmd => true
  | .iniCmdw => true
  | .rfrHome => true
  | .rfrHomew => true
  | .rfrLine2 => true
  | .rfrLine2w => true
  | .rfrChar => true
  | .rfrCharw => true
  | _ => false

/-- Places a sequencer operation as the machine's next step; `BG.START` takes the event that enables it. -/
def State.placeStep (s : State) (i : Instr) (w : BitVec 8) : State :=
  let t := s.withStateCode w
  let t := if needsIdle i then { t with ts := .idle } else t
  t.nextTurn (if i = Instr.bgStart then .event 0b0100000#7 else .machine)

/-- Places the operation that emits a command word: the schedule entry `k` of `INI.CMD`. -/
def State.placeSchedule (s : State) (k : Fin 8) : State :=
  { s with tSel := k }.placeStep .iniCmd 0xC1#8

/-- Places the operation that emits a transport word (30_encoding.md rule R91, "emitted by"), with the operand it
takes the byte from: the first schedule entry of the command, or cell 0 of the frame. -/
def State.placeWord (s : State) (i : Instr) : State :=
  match i with
  | .lcdFuncset => s.placeSchedule 0
  | .lcdDispoff => s.placeSchedule 4
  | .lcdClear => s.placeSchedule 5
  | .lcdEntrymode => s.placeSchedule 6
  | .lcdDispon => s.placeSchedule 7
  | .lcdLine2 => s.placeStep .rfrLine2 0x83#8
  | .lcdHome => s.placeStep .rfrHome 0x81#8
  | .lcdData d =>
    { s with cursor := 0, fb := Memory.store s.cfg.fbReset s.fb 0 d }.placeStep .rfrChar 0x85#8
  | _ => s

/-- Stores an operation where the next step takes it (assumption log 18): an event on the agenda; a dispatch, a
sequencer operation or a transport phase as the registers its agent decodes, with a turn for that agent
(`TRN.DONE` with the event that enables it); a transport word as the operation that emits it. -/
def State.place (s : State) (i : Instr) : State :=
  match encode s.cfg i with
  | .ev w => s.nextTurn (.event w)
  | .arb w => (s.withArb w).nextTurn .machine
  | .st w => s.placeStep i w
  | .tp w =>
    { s with rstActive := false, ts := Phase.ofCode w }.nextTurn
      (if i = Instr.trnDone then .event 0b0010000#7 else .transport)
  | .tw _ => s.placeWord i

/-- Stores a table word that is not one operation: several events at once as the vector they are, anything else as
the state code it is, which the machine step refuses. -/
def State.placeWordless (s : State) (w : Nat) : State :=
  if w < 128 then s.nextTurn (.event (.ofNat 7 w))
  else (s.withStateCode (.ofNat 8 w)).nextTurn .machine

end Sys2Proof.Machine
end

