-- ==== Sys2Proof/Machine/Agents.lean ====
section
/-! DEFINITION. One turn of each agent (00_scope.md rules R12 and R13), and the order in which the block runs on its
own (30_encoding.md rule R102). -/

namespace Sys2Proof.Machine

/-- Performs operations one after another, with nothing between them. -/
def execAll : List Instr → State → Result
  | [], s => .next s
  | i :: rest, s => andThen (exec i s) (execAll rest)

/-- The environment's turn: an event vector (30_encoding.md rule R83). With `RST` set it is a reset; otherwise it
releases a reset in force (70_reset_and_hazards.md rule R261), and then its events take effect in order. -/
def eventTurn (w : BitVec 7) (s : State) : Result :=
  if w[6] then exec .evRst s else execAll (decodeEvents w) (releaseReset s)

/-- Performs a selected operation if it is enabled; otherwise the agent has no step, and nothing changes
(assumption log 7). -/
def perform (i : Instr) (s : State) : Result :=
  if enabled i s then exec i s else .next s

/-- The machine's turn (00_scope.md rule R13). While reset is active nothing happens (10_state.md rule R40); a state
code outside the table is refused (30_encoding.md rule R96). -/
def machineTurn (s : State) : Result :=
  if s.rstActive then .next s
  else
    match fetchMachine s with
    | .ok i => perform i s
    | .error _ => .refused .noOperation

/-- The transport sequencer's turn. While reset is active or the transport is idle nothing happens. -/
def transportTurn (s : State) : Result :=
  if s.rstActive then .next s
  else
    match fetchTransport s with
    | .ok i => perform i s
    | .error _ => .next s

/-- One transition of the block running on its own: the machine step if there is a visible one, else the transport
phase if it can go on; a block at rest takes `BG.IDLE` or waits, and nothing changes. DESIGN CHOICE
(assumption log 6): every other order is reachable by naming the turns. -/
def autoTurn (s : State) : Result :=
  if machineReady s then machineTurn s
  else if transportReady s then transportTurn s
  else .next s

/-- Takes the turn at the head of the agenda; with none left the block runs on its own. -/
def takeTurn (s : State) : Result :=
  match s.agenda with
  | [] => autoTurn s
  | .event w :: rest => eventTurn w { s with agenda := rest }
  | .adc level :: rest => .next { s with adc := level, agenda := rest }
  | .machine :: rest => machineTurn { s with agenda := rest }
  | .transport :: rest => transportTurn { s with agenda := rest }
  | .run :: rest => if atRest s then .next { s with agenda := rest } else autoTurn s

/-- A trace of event vectors with the `adc` level beside each, the block running until it is at rest after each
(30_encoding.md rule R102). -/
def traceTurns : List (BitVec 7 × BitVec 16) → List Turn
  | [] => []
  | (w, level) :: rest => .adc level :: .event w :: .run :: traceTurns rest

/-- Loads a trace: this hardware's program, given from outside (assumption log 18). -/
def State.withTrace (s : State) (trace : List (BitVec 7 × BitVec 16)) : State :=
  { s with agenda := traceTurns trace }

end Sys2Proof.Machine
end

