-- ==== Sys2Proof/Machine/Step.lean ====
section
/-! DEFINITION. The step, and where the host stores an instruction for it. -/

namespace Sys2Proof.Machine

/-- One transition (00_scope.md rule R13). A parameter record that violates rule R7 is refused, as that rule asks. -/
def step (s : State) : Host.Outcome State Fault Refusal :=
  if s.cfg.valid then takeTurn s else .refused .badParameters

/-- Stores a table word where the next step takes it (assumption log 18). -/
def State.withFetchWord (s : State) (nbits w : Nat) : State :=
  match decodeTableWord nbits w with
  | some i => s.place i
  | none => s.placeWordless w

end Sys2Proof.Machine
end

