-- ==== Sys2Proof/Safety.lean ====
section
/-! DEFINITION. What counts as a safe state, and the terms claims use: priorities, the dispatch condition, the legal
step codes, the invariants of 10_state.md rule R45, and the operations of one complete activation. -/

namespace Sys2Proof.Machine

/-! ### The arbiter's condition (00_scope.md rule R13) -/

/-- `prio(c)`: the context code read as a number (30_encoding.md rule R84). -/
def Context.prio : Context → Nat
  | .bg => 0
  | .ctrl => 1
  | .med => 2
  | .fast => 3

/-- Source `src` is pending above the running context, with interrupts enabled. -/
def wantsDispatch (s : State) (src : Source) : Bool :=
  s.ien && s.pend.get src && decide (s.running.prio < src.context.prio)

/-- The highest source that wants a dispatch, if any (rule R13). -/
def dispatchRule (s : State) : Option Source :=
  [Source.fast, Source.med, Source.ctrl].find? (wantsDispatch s)

/-- `DISPATCH.src`. -/
def dispatchOf : Source → Instr
  | .fast => .dispatchFast
  | .med => .dispatchMed
  | .ctrl => .dispatchCtrl

/-- The tick event of a source. -/
def tickOf : Source → Instr
  | .fast => .evTickF
  | .med => .evTickM
  | .ctrl => .evTickC

/-- `RET.src`. -/
def returnOf : Source → Instr
  | .fast => .retFast
  | .med => .retMed
  | .ctrl => .retCtrl

/-! ### Step codes -/

/-- The step codes of each context that the table of 30_encoding.md rule R86 lists. -/
def legalStep (c : Context) (n : BitVec 6) : Bool :=
  match c with
  | .bg => decide (n.toNat ≤ 1)
  | .ctrl => decide (n.toNat ≤ 7) || decide (32 ≤ n.toNat)
  | .med => decide (n.toNat ≤ 7)
  | .fast => decide (n.toNat ≤ 3)

/-- Context `CTRL` stands between `CS.ENTER` and `CS.EXIT`. -/
def State.inCritical (s : State) : Bool :=
  s.act.ctrl && (decide (s.hpc.ctrl = 3) || decide (s.hpc.ctrl = 4))

/-- The `FAST` handler stands at `INI.CMDW`. -/
def State.atInitWait (s : State) : Bool :=
  s.act.fast && decide (s.hpc.fast = 2)

/-- The `FAST` handler stands at `INI.CMD` or `INI.CMDW`. -/
def State.inCommand (s : State) : Bool :=
  s.act.fast && (decide (s.hpc.fast = 1) || decide (s.hpc.fast = 2))

/-- The `MED` handler stands at a wait operation of the refresh. -/
def State.atRefreshWait (s : State) : Bool :=
  s.act.med && (decide (s.hpc.med = 2) || decide (s.hpc.med = 4) || decide (s.hpc.med = 6))

/-- The `MED` handler has left `RFR.SEL` toward an issue and has not reached `RET.MED`. -/
def State.inRefresh (s : State) : Bool :=
  s.act.med && decide (1 ≤ s.hpc.med.toNat) && decide (s.hpc.med.toNat ≤ 6)

/-- The `CTRL` handler has passed `CTL.TARGET` and not yet `CTL.DUTY`. -/
def State.hasTarget (s : State) : Bool :=
  s.act.ctrl && !(decide (s.hpc.ctrl = 0) || decide (s.hpc.ctrl = 1) || decide (s.hpc.ctrl = 7))

/-! ### The invariant -/

/-- The invariants of the reachable states (10_state.md rule R45, with the facts the rules derive beside them). -/
structure State.Inv (s : State) : Prop where
  /-- The record meets 00_scope.md rule R7. -/
  params : s.cfg.valid = true
  /-- The frame buffer is in its canonical form, 32 cells (rule R45 (b)). -/
  frame : Memory.wf s.cfg.fbReset s.fb = true
  /-- `SAMPLE_CNT` fits its width (rule R34). -/
  sample : s.sampleCnt.toNat < 2 ^ s.cfg.sampleWidth
  /-- Every step register holds a listed code (30_encoding.md rule R96). -/
  steps : ∀ c, legalStep c (s.hpc.get c) = true
  /-- Before `BG.START` interrupts are disabled and no handler is active. -/
  background : s.hpc.bg = 0 → s.ien = false ∧ s.act = ⟨false, false, false⟩
  /-- `IEN = 0` only before `BG.START` or inside the critical section (rule R45 (f)). -/
  disabled : s.ien = false → s.hpc.bg = 0 ∨ s.inCritical = true
  /-- Inside the critical section `CTRL` runs with interrupts disabled and the saved enable is 1 (rule R212). -/
  critical : s.inCritical = true →
    s.ien = false ∧ s.ienSave = true ∧ s.act.med = false ∧ s.act.fast = false
  /-- A transaction in flight has exactly one handler waiting for it (rule R45 (g)). -/
  transfer : s.ts ≠ .idle → (s.atInitWait ^^ s.atRefreshWait) = true
  /-- `TW[8]`, which drives `lcd_rw`, is 0: the block never reads the panel (30_encoding.md rules R90 and R97,
  42_transport.md rule R153). -/
  readWrite : s.tw.getLsbD 8 = false
  /-- A command is being sent only before completion, at the tick of its schedule entry. -/
  command : s.inCommand = true → s.initDone = false ∧ s.initMs = s.cfg.schedT[s.tSel]
  /-- Complete holds `SCHED_T[7]` in `INIT_MS` (40_display_init.md rule R121). -/
  complete : s.initDone = true → s.initMs = s.cfg.schedT[7]
  /-- Before completion `INIT_MS` is below `SCHED_T[7]`, except while the last command is sent (rule R121). -/
  progress : s.initDone = false →
    s.initMs.toNat < s.cfg.schedT[7].toNat ∨ (s.inCommand = true ∧ s.tSel = 7)
  /-- The refresh issues only after completion (41_display_refresh.md rule R131). -/
  refresh : s.inRefresh = true → s.initDone = true
  /-- The cursor at each step of the refresh (rule R131). -/
  cursorAt : s.act.med = true →
    ((s.hpc.med = 1 ∨ s.hpc.med = 2) → s.cursor.val = 32) ∧
    ((s.hpc.med = 3 ∨ s.hpc.med = 4) → s.cursor.val = 16) ∧
    ((s.hpc.med = 5 ∨ s.hpc.med = 6) → s.cursor.val ≤ 31)
  /-- The cursor has not moved before the handover. -/
  cursorStart : s.initDone = false → s.cursor.val = 0
  /-- `PULSE_CNT = 0` while `INIT_DONE = 0` (rule R45 (h)). -/
  pulses : s.initDone = false → s.pulseCnt = 0
  /-- The commanded speed is in range whenever an operation reads it (rule R45 (a)). -/
  commanded : s.hasTarget = true →
    s.cfg.minRpm ≤ s.cmdSpeed.toNat ∧ s.cmdSpeed.toNat ≤ s.cfg.maxRpm

/-- No tick has been lost (60_exceptions.md rule R232). -/
def State.noOverrun (s : State) : Bool :=
  !s.ovr.ctrl && !s.ovr.med && !s.ovr.fast

/-- Every register and cell with a reset value holds it (10_state.md rules R40 and R46). -/
structure State.HoldsReset (s : State) : Prop where
  duty : s.duty = s.cfg.dutyReset
  pulseCnt : s.pulseCnt = 0
  hpc : s.hpc = ⟨0, 0, 0, 0⟩
  initMs : s.initMs = 0
  initDone : s.initDone = false
  cursor : s.cursor = 0
  sampleCnt : s.sampleCnt = 0
  ien : s.ien = false
  ienSave : s.ienSave = false
  pend : s.pend = ⟨false, false, false⟩
  act : s.act = ⟨false, false, false⟩
  ovr : s.ovr = ⟨false, false, false⟩
  ts : s.ts = .idle
  tw : s.tw = 0
  cells : ∀ a : Fin 32, memRead s a.val = some s.cfg.fbReset[a]
  lcdTrace : s.lcdTrace = []
  dutyTrace : s.dutyTrace = []

/-! ### Complete activations -/

/-- An operation the state selects: an event, which the environment may present at any moment (00_scope.md rule R13),
or an enabled operation that the machine or the transport decodes. -/
def Selected (i : Instr) (s : State) : Prop :=
  (∃ w, decodeEv w = .ok i) ∨
  (s.rstActive = false ∧ (fetchMachine s = .ok i ∨ fetchTransport s = .ok i) ∧ enabled i s = true)

/-- Each operation of a list is the one the state selects when its turn comes. -/
def Follows : List Instr → State → Prop
  | [], _ => True
  | i :: rest, s => Selected i s ∧ ∀ t, exec i s = .next t → Follows rest t

/-- The phases of one transaction that completes (42_transport.md rule R154); `EV.READY` performs `TRN.DONE`. -/
def transferOps : List Instr := [.trnEhi, .trnElo, .evReady]

/-- One fast tick, served, that takes `INIT_MS` to `ms`, its transaction completing (40_display_init.md rule R110). -/
def initActivation (p : Params) (ms : BitVec 16) : List Instr :=
  match scheduleMatch p ms with
  | some _ => [.evTickF, .dispatchFast, .iniTick, .iniCmd] ++ transferOps ++ [.iniCmdw, .retFast]
  | none => [.evTickF, .dispatchFast, .iniTick, .retFast]

/-- The served fast ticks 1 to `n`. -/
def initActivations (p : Params) : Nat → List Instr
  | 0 => []
  | n + 1 => initActivations p n ++ initActivation p (BitVec.ofNat 16 (n + 1))

/-- One medium tick, served, at cursor `c` after completion, its transactions completing (41_display_refresh.md rule
R140). -/
def refreshActivation (c : Nat) : List Instr :=
  [.evTickM, .dispatchMed, .rfrSel] ++
  (if c = 32 then [.rfrHome] ++ transferOps ++ [.rfrHomew]
   else (if c = 16 then [.rfrLine2] ++ transferOps ++ [.rfrLine2w] else []) ++
     [.rfrChar] ++ transferOps ++ [.rfrCharw]) ++
  [.retMed]

/-- The served medium ticks at cursors `0 .. n - 1`. -/
def refreshActivations : Nat → List Instr
  | 0 => []
  | n + 1 => refreshActivations n ++ refreshActivation n

/-- The turns of one medium tick at cursor `c` in a trace (rule R102): the tick, then one `EV.READY` for each transaction
of the activation (41_display_refresh.md rule R140), the block running after each event. -/
def refreshTurns (c : Nat) : List Turn :=
  [.event 0x02#7, .run] ++ (if c = line2Index then [.event 0x10#7, .run] else []) ++ [.event 0x10#7, .run]

/-- The words one medium tick sends at the cursor of `s` (rule R140). -/
def refreshWords (s : State) : List (Bool × Byte) :=
  if s.cursor.val = endIndex then [(false, s.cfg.cmdHome)]
  else (if s.cursor.val = line2Index then [(false, s.cfg.cmdLine2)] else []) ++
    [(true, (memRead s s.cursor.val).getD 0)]

end Sys2Proof.Machine
end

