-- ==== Sys2Proof/Certificates/Slice0/Obligations.lean ====
section
/-! DEFINITION. The statements for the provers. Rule numbers are those of `spec/`. Where a statement equates the next
state with a record update of the old one, every field not named in the update is unchanged, the frame buffer and so
every byte `memRead` answers among them. -/

open Sys2Proof Sys2Proof.Machine

/-! ### Encodings -/

/-- Words written out from the tables of 30_encoding.md (R81, R85, R86, R89, R91) decode to their operations. -/
def Obligations.TableWordsDecode : Prop :=
  decodeEv 0b0000001#7 = .ok .evTickF ∧ decodeEv 0b0100000#7 = .ok .evStart ∧ decodeEv 0b1000000#7 = .ok .evRst ∧
  decodeArb 0b1110011#7 = .ok .dispatchFast ∧ decodeArb 0b1011001#7 = .ok .dispatchMed ∧
  decodeArb 0b1001000#7 = .ok .dispatchCtrl ∧
  decodeSt 0b00000001#8 = .ok .bgIdle ∧ decodeSt 0b01000011#8 = .ok .ctlPulses ∧
  decodeSt 0b01101100#8 = .ok (.ctlFmt 12) ∧ decodeSt 0b10000101#8 = .ok .rfrChar ∧
  decodeSt 0b11000010#8 = .ok .iniCmdw ∧ decodeTp 0b10#2 = .ok .trnElo ∧
  decodeTw Params.refEx 0b0000001100#10 = .ok .lcdDispon ∧ decodeTw Params.refEx 0b1000110101#10 = .ok (.lcdData 0x35#8)

/-- Decoding the code of any operation gives the operation back, under every parameter record, for every operand. A
command word is well-formed if its byte differs from those of the commands before it in the table of R91. That of two
commands with one byte the first is decoded is the model's own choice, not R91's (assumption log 24). -/
def Obligations.EncodedOperationDecodesToItself : Prop :=
  ∀ (p : Params) (i : Instr), i.wf p = true → decode p (encode p i) = .ok i

/-- R85: the bits of the arbiter vector, its three patterns, and their equivalence with the condition of R13. -/
def Obligations.DispatchPatternsAreThePriorityRule : Prop :=
  (∀ s : State,
    (arbVector s).getLsbD 6 = s.ien ∧ (arbVector s).getLsbD 5 = s.pend.fast ∧ (arbVector s).getLsbD 4 = s.pend.med ∧
    (arbVector s).getLsbD 3 = s.pend.ctrl ∧ (arbVector s).getLsbD 2 = s.act.fast ∧
    (arbVector s).getLsbD 1 = s.act.med ∧ (arbVector s).getLsbD 0 = s.act.ctrl) ∧
  (∀ w : BitVec 7,
    (decodeArb w = .ok .dispatchFast ↔ w.getLsbD 6 = true ∧ w.getLsbD 5 = true ∧ w.getLsbD 2 = false) ∧
    (decodeArb w = .ok .dispatchMed ↔ w.getLsbD 6 = true ∧ w.getLsbD 5 = false ∧ w.getLsbD 4 = true ∧
      w.getLsbD 2 = false ∧ w.getLsbD 1 = false) ∧
    (decodeArb w = .ok .dispatchCtrl ↔ w = 0b1001000#7)) ∧
  (∀ s : State, decodeArb (arbVector s) =
    match dispatchRule s with
    | some src => .ok (dispatchOf src)
    | none => .error .noDispatch)

/-- R96: exactly the listed step codes select an operation, and the machine's turn at any other code is refused. -/
def Obligations.UnlistedStateCodesAreRefused : Prop :=
  (∀ (c : Context) (n : BitVec 6), (∃ i, decodeSt (c.code ++ n) = .ok i) ↔ legalStep c n = true) ∧
  (∀ (s : State) (rest : List Turn), s.cfg.valid = true → s.agenda = .machine :: rest → s.rstActive = false →
    dispatchRule s = none → legalStep s.running (s.hpc.get s.running) = false → step s = .refused .noOperation)

/-! ### The step -/

/-- A step runs the operation its agent decodes, on the state from which the turn has been taken: the machine and the
transport when the operation is enabled, and the environment's vector that is one event, which also releases a reset
in force unless it is one. -/
def Obligations.StepRunsTheDecodedOperation : Prop :=
  ∀ (s : State) (rest : List Turn) (i : Instr), s.cfg.valid = true →
    (s.agenda = .machine :: rest → s.rstActive = false → fetchMachine s = .ok i → enabled i s = true →
      step s = exec i { s with agenda := rest }) ∧
    (s.agenda = .transport :: rest → s.rstActive = false → fetchTransport s = .ok i → enabled i s = true →
      step s = exec i { s with agenda := rest }) ∧
    (∀ w, s.agenda = .event w :: rest → decodeEv w = .ok i → i ≠ .evRst →
      step s = exec i { s with agenda := rest, rstActive := false }) ∧
    (∀ w, s.agenda = .event w :: rest → decodeEv w = .ok .evRst → step s = exec .evRst { s with agenda := rest })

/-- R13: when a source wants a dispatch, the machine's turn dispatches the highest such source, whatever the running
context's operation is. -/
def Obligations.DispatchGoesBeforeTheRunningContext : Prop :=
  ∀ (s : State) (rest : List Turn) (src : Source), s.cfg.valid = true → s.agenda = .machine :: rest →
    s.rstActive = false → dispatchRule s = some src →
    step s = .next { s with
      agenda := rest
      pend := s.pend.set src false
      act := s.act.set src true
      hpc := s.hpc.set src.context 0 }

/-- R83: a vector with `RST` set is a reset whatever its other bits; any other vector is its events applied in the
order `START`, `PULSE`, `READY`, `TICKF`, `TICKM`, `TICKC`, in one step; every other order of them gives the same
state; and the vector 0 is no event, except that it releases reset. -/
def Obligations.EventVectorIsItsEventsInAnyOrder : Prop :=
  (∀ (s : State) (rest : List Turn) (w : BitVec 7), s.cfg.valid = true → s.agenda = .event w :: rest →
    w.getLsbD 6 = true → step s = exec .evRst { s with agenda := rest }) ∧
  (∀ (s : State) (rest : List Turn) (w : BitVec 7), s.cfg.valid = true → s.agenda = .event w :: rest →
    w.getLsbD 6 = false →
    step s = execAll
      ((if w.getLsbD 5 then [Instr.evStart] else []) ++ (if w.getLsbD 3 then [Instr.evPulse] else []) ++
       (if w.getLsbD 4 then [Instr.evReady] else []) ++ (if w.getLsbD 0 then [Instr.evTickF] else []) ++
       (if w.getLsbD 1 then [Instr.evTickM] else []) ++ (if w.getLsbD 2 then [Instr.evTickC] else []))
      { s with agenda := rest, rstActive := false }) ∧
  (∀ (s : State) (w : BitVec 7) (l : List Instr), w.getLsbD 6 = false → l.Perm (decodeEvents w) →
    execAll l s = execAll (decodeEvents w) s) ∧
  (∀ (s : State) (rest : List Turn), s.cfg.valid = true → s.agenda = .event 0 :: rest →
    step s = .next { s with agenda := rest, rstActive := false })

/-- R40, R260: while reset is active a turn of the machine or of the transport changes nothing. -/
def Obligations.NothingRunsWhileResetIsActive : Prop :=
  ∀ (s : State) (rest : List Turn), s.cfg.valid = true → s.rstActive = true →
    (s.agenda = .machine :: rest ∨ s.agenda = .transport :: rest ∨ s.agenda = .run :: rest) →
    step s = .next { s with agenda := rest }

/-- R261: a vector without `RST` releases reset, and then its events take effect as if reset had not been active. -/
def Obligations.VectorWithoutResetReleasesReset : Prop :=
  ∀ (s : State) (rest : List Turn) (w : BitVec 7), s.cfg.valid = true → s.rstActive = true →
    s.agenda = .event w :: rest → w.getLsbD 6 = false →
    step s = step { s with rstActive := false } ∧ ∃ t, step s = .next t ∧ t.rstActive = false

/-- R7: a parameter record that violates a constraint is refused: no step is taken under it. -/
def Obligations.InvalidParametersAreRefused : Prop :=
  ∀ s : State,
    (s.cfg.maxRpm < s.cfg.minRpm ∨ s.cfg.maxRpm < 1 ∨ 9999 < s.cfg.maxRpm ∨
     s.cfg.kDiv < 1 ∨ 2 ^ s.cfg.sampleWidth ≤ s.cfg.kDiv ∨ s.cfg.sampleWidth < 1 ∨ 32 < s.cfg.sampleWidth ∨
     s.cfg.fullScale < 1 ∨ 65535 < s.cfg.fullScale ∨ s.cfg.windowConst < 1 ∨ 65535 < s.cfg.windowConst ∨
     s.cfg.schedT[0].toNat < 1 ∨ (∃ i j : Fin 8, i < j ∧ s.cfg.schedT[j].toNat ≤ s.cfg.schedT[i].toNat)) →
    step s = .refused .badParameters

/-- R150: a running context at a wait operation, with the transport not idle and no dispatch wanted, has no step: the
turn passes and nothing else changes. The operation itself, performed while the transport is busy, changes nothing
(assumption log 10). -/
def Obligations.WaitingHandlerHasNoStep : Prop :=
  (∀ (s : State) (rest : List Turn), s.cfg.valid = true → s.agenda = .machine :: rest → s.rstActive = false →
    dispatchRule s = none → s.ts ≠ .idle →
    (stateCode s = 0xC2#8 ∨ stateCode s = 0x82#8 ∨ stateCode s = 0x84#8 ∨ stateCode s = 0x86#8) →
    step s = .next { s with agenda := rest }) ∧
  (∀ (s : State) (i : Instr), i ∈ [Instr.iniCmdw, .rfrHomew, .rfrLine2w, .rfrCharw] → s.ts ≠ .idle →
    exec i s = .next s)

/-! ### Events and reset -/

/-- R207: a tick sets its pending flag; one that finds it set is lost and sets the sticky overrun flag. -/
def Obligations.TickIsLatchedOrMarkedLost : Prop :=
  (decodeEv 0x01#7 = .ok .evTickF ∧ decodeEv 0x02#7 = .ok .evTickM ∧ decodeEv 0x04#7 = .ok .evTickC) ∧
  ∀ s : State,
    exec .evTickF s = .next (if s.pend.fast = true then { s with ovr := { s.ovr with fast := true } }
      else { s with pend := { s.pend with fast := true } }) ∧
    exec .evTickM s = .next (if s.pend.med = true then { s with ovr := { s.ovr with med := true } }
      else { s with pend := { s.pend with med := true } }) ∧
    exec .evTickC s = .next (if s.pend.ctrl = true then { s with ovr := { s.ovr with ctrl := true } }
      else { s with pend := { s.pend with ctrl := true } })

/-- R193: a pulse is counted modulo 2^16, and only when `INIT_DONE = 1`. -/
def Obligations.PulseCountsAfterHandover : Prop :=
  decodeEv 0x08#7 = .ok .evPulse ∧
  ∀ s : State, ∃ t, exec .evPulse s = .next t ∧ t = { s with pulseCnt := t.pulseCnt } ∧
    (s.initDone = true → t.pulseCnt.toNat = (s.pulseCnt.toNat + 1) % 65536) ∧
    (s.initDone = false → t.pulseCnt = s.pulseCnt)

/-- R151: `EV.READY`, which performs `TRN.DONE`, ends a settling transaction and is otherwise ignored. -/
def Obligations.ReadyEndsOnlyASettlingTransaction : Prop :=
  (decodeEv 0x10#7 = .ok .evReady ∧ decodeTp 0b11#2 = .ok .trnDone) ∧
  ∀ s : State,
    exec .evReady s = .next (if s.ts = .settle then { s with ts := .idle } else s) ∧
    exec .trnDone s = exec .evReady s

/-- R211: `EV.START`, which is the operation `BG.START`, enables interrupts when `HPC[BG] = 0` and is otherwise
ignored; the machine never takes `BG.START` by itself. -/
def Obligations.StartEnablesInterruptsOnce : Prop :=
  (decodeEv 0x20#7 = .ok .evStart ∧ decodeSt 0x00#8 = .ok .bgStart) ∧
  (∀ s : State,
    exec .evStart s = .next (if s.hpc.bg = 0 then { s with ien := true, hpc := { s.hpc with bg := 1 } } else s) ∧
    exec .bgStart s = exec .evStart s) ∧
  (∀ (s : State) (rest : List Turn), s.cfg.valid = true → s.agenda = .machine :: rest → s.rstActive = false →
    dispatchRule s = none → stateCode s = 0x00#8 → step s = .next { s with agenda := rest })

/-- R260: from any state, `EV.RST` gives every register and cell of R46 its reset value, makes reset active and empties
both traces; the registers R46 calls unspecified are left free. That the parameter record, the `adc` level and the
turns to come are kept is the model's own (assumption log 23). -/
def Obligations.ResetAssignsEveryRegister : Prop :=
  decodeEv 0x40#7 = .ok .evRst ∧
  ∀ s : State, ∃ t, exec .evRst s = .next t ∧ t.HoldsReset ∧ t.rstActive = true ∧
    t.cfg = s.cfg ∧ t.adc = s.adc ∧ t.agenda = s.agenda

/-- R40: the registers hold their reset values as long as reset is active; every step keeps this. -/
def Obligations.ActiveResetHoldsRegisters : Prop :=
  ∀ s t : State, (s.rstActive = true → s.HoldsReset) → step s = .next t → (t.rstActive = true → t.HoldsReset)

/-! ### Arbiter, background and critical section -/

/-- R237: what `DISPATCH.s` does, completely. -/
def Obligations.DispatchEntersTheHandlerOnly : Prop :=
  ∀ s : State,
    exec .dispatchFast s = .next { s with
      pend := { s.pend with fast := false }, act := { s.act with fast := true }, hpc := { s.hpc with fast := 0 } } ∧
    exec .dispatchMed s = .next { s with
      pend := { s.pend with med := false }, act := { s.act with med := true }, hpc := { s.hpc with med := 0 } } ∧
    exec .dispatchCtrl s = .next { s with
      pend := { s.pend with ctrl := false }, act := { s.act with ctrl := true }, hpc := { s.hpc with ctrl := 0 } }

/-- R209: `RET.s` clears `ACT[s]` and restores nothing. -/
def Obligations.ReturnOnlyClearsActive : Prop :=
  (decodeSt 0xC3#8 = .ok .retFast ∧ decodeSt 0x87#8 = .ok .retMed ∧ decodeSt 0x47#8 = .ok .retCtrl) ∧
  ∀ s : State,
    exec .retFast s = .next { s with act := { s.act with fast := false } } ∧
    exec .retMed s = .next { s with act := { s.act with med := false } } ∧
    exec .retCtrl s = .next { s with act := { s.act with ctrl := false } }

/-- R214: `BG.IDLE` sets `HPC[BG]` to 1, so at its own state code it changes nothing. -/
def Obligations.BackgroundIdleChangesNothing : Prop :=
  decodeSt 0x01#8 = .ok .bgIdle ∧
  (∀ s : State, exec .bgIdle s = .next { s with hpc := { s.hpc with bg := 1 } }) ∧
  (∀ s : State, s.hpc.bg = 1 → exec .bgIdle s = .next s)

/-- R212, R213: `CS.ENTER` saves the enable and clears it; `CS.EXIT` restores it; and between them, as in every state
with `IEN = 0`, no dispatch is selected: `CTRL` runs. -/
def Obligations.CriticalSectionSavesAndRestoresEnable : Prop :=
  (decodeSt 0x42#8 = .ok .csEnter ∧ decodeSt 0x44#8 = .ok .csExit) ∧
  (∀ s : State,
    exec .csEnter s = .next { s with ienSave := s.ien, ien := false, hpc := { s.hpc with ctrl := 3 } } ∧
    exec .csExit s = .next { s with ien := s.ienSave, hpc := { s.hpc with ctrl := 5 } }) ∧
  (∀ s : State, ∃ t, execAll [.csEnter, .ctlPulses, .csExit] s = .next t ∧ t.ien = s.ien ∧ t.pulseCnt = 0) ∧
  (∀ s : State, s.ien = false → dispatchRule s = none ∧ ∀ i, decodeArb (arbVector s) ≠ .ok i) ∧
  (∀ s : State, s.Inv → s.inCritical = true →
    dispatchRule s = none ∧ s.running = .ctrl ∧ (fetchMachine s = .ok .ctlPulses ∨ fetchMachine s = .ok .csExit))

/-- R236, R238: in the machine's turn the step register of every context but the running one is untouched, except that
a dispatched handler starts at its first operation. -/
def Obligations.PreemptedContextsKeepTheirStep : Prop :=
  ∀ (s t : State) (rest : List Turn) (c : Context), s.agenda = .machine :: rest → step s = .next t → c ≠ s.running →
    t.hpc.get c = s.hpc.get c ∨
    ∃ src, dispatchRule s = some src ∧ src.context = c ∧ t.hpc.get c = 0

/-- R235: a pending flag is cleared by its dispatch and by reset, by nothing else: a step that clears it and is no reset
is a machine step, named or taken by the block on its own, that enters the handler. R38: an overrun flag is cleared by
reset only. -/
def Obligations.PendingAndOverrunAreCleared : Prop :=
  ∀ (s t : State) (src : Source), step s = .next t →
    (∃ w rest, s.agenda = .event w :: rest ∧ w.getLsbD 6 = true) ∨
    ((s.pend.get src = true → t.pend.get src = true ∨
        (dispatchRule s = some src ∧ t.act.get src = true ∧ t.hpc.get src.context = 0 ∧
          (s.agenda = [] ∨ ∃ rest, s.agenda = .machine :: rest ∨ s.agenda = .run :: rest))) ∧
     (s.ovr.get src = true → t.ovr.get src = true))

/-! ### Speed Control Loop -/

/-- R161: `CTL.DIV` counts modulo `2^SAMPLE_CNT_WIDTH`, compares for equality after the increment, and clears on a match
only with `DIV_RELOAD`. -/
def Obligations.DividerCountsAndCompares : Prop :=
  decodeSt 0x40#8 = .ok .ctlDiv ∧
  ∀ s : State, s.cfg.valid = true →
    ∃ t, exec .ctlDiv s = .next t ∧ t = { s with sampleCnt := t.sampleCnt, hpc := { s.hpc with ctrl := t.hpc.ctrl } } ∧
      (if (s.sampleCnt.toNat + 1) % 2 ^ s.cfg.sampleWidth = s.cfg.kDiv then
        t.sampleCnt.toNat = (if s.cfg.divReload = true then 0 else s.cfg.kDiv) ∧ t.hpc.ctrl = 1
       else t.sampleCnt.toNat = (s.sampleCnt.toNat + 1) % 2 ^ s.cfg.sampleWidth ∧ t.hpc.ctrl = 7)

/-- R194, R195: with `DIV_RELOAD = false`, after the `n`-th `CTL.DIV` from zero `SAMPLE_CNT = n mod 2^W`, and the body is
selected on exactly the ticks with `n mod 2^W = K_DIV`. -/
def Obligations.LiteralDividerCadence : Prop :=
  ∀ (n : Nat) (s : State), s.cfg.valid = true → s.cfg.divReload = false → s.sampleCnt = 0 → 1 ≤ n →
    ∃ t, execAll (List.replicate n .ctlDiv) s = .next t ∧ t.sampleCnt.toNat = n % 2 ^ s.cfg.sampleWidth ∧
      t.hpc.ctrl = (if n % 2 ^ s.cfg.sampleWidth = s.cfg.kDiv then 1 else 7)

/-- R196: with `DIV_RELOAD = true` the body is selected on exactly the multiples of `K_DIV`, and `SAMPLE_CNT` never
exceeds `K_DIV`. -/
def Obligations.PeriodicDividerCadence : Prop :=
  ∀ (n : Nat) (s : State), s.cfg.valid = true → s.cfg.divReload = true → s.sampleCnt = 0 → 1 ≤ n →
    ∃ t, execAll (List.replicate n .ctlDiv) s = .next t ∧ t.sampleCnt.toNat = n % s.cfg.kDiv ∧
      t.hpc.ctrl = (if s.cfg.kDiv ∣ n then 1 else 7)

/-- R162: `CTL.TARGET` samples `adc` once, scales it with the rounding the record selects, and clamps; a reading of 0
gives `MIN_RPM`, a reading at or above full scale gives `MAX_RPM`, and the result is always in range. -/
def Obligations.TargetIsScaledAndClamped : Prop :=
  decodeSt 0x41#8 = .ok .ctlTarget ∧
  ∀ s : State, s.cfg.valid = true →
    ∃ t, exec .ctlTarget s = .next t ∧
      t = { s with tAdc := s.adc, cmdSpeed := t.cmdSpeed, hpc := { s.hpc with ctrl := 2 } } ∧
      t.cmdSpeed.toNat = max s.cfg.minRpm (min s.cfg.maxRpm
        (match s.cfg.targetRound with
         | .nearestHalfUp => (2 * s.adc.toNat * s.cfg.maxRpm + s.cfg.fullScale) / (2 * s.cfg.fullScale)
         | .truncate => s.adc.toNat * s.cfg.maxRpm / s.cfg.fullScale)) ∧
      (s.adc = 0 → t.cmdSpeed.toNat = s.cfg.minRpm) ∧
      (s.cfg.fullScale ≤ s.adc.toNat → t.cmdSpeed.toNat = s.cfg.maxRpm) ∧
      s.cfg.minRpm ≤ t.cmdSpeed.toNat ∧ t.cmdSpeed.toNat ≤ s.cfg.maxRpm

/-- R164: `CTL.PULSES` takes the whole count and clears it, in one operation. -/
def Obligations.PulseCountIsReadAndCleared : Prop :=
  decodeSt 0x43#8 = .ok .ctlPulses ∧
  ∀ s : State, exec .ctlPulses s = .next { s with tPulses := s.pulseCnt, pulseCnt := 0, hpc := { s.hpc with ctrl := 4 } }

/-- R165: the measured speed is the floor of pulses times 60 over the window constant, in full. -/
def Obligations.MeasuredSpeedIsTheFloor : Prop :=
  decodeSt 0x45#8 = .ok .ctlMeasure ∧
  ∀ s : State, s.cfg.valid = true →
    ∃ t, exec .ctlMeasure s = .next t ∧
      t = { s with measSpeed := t.measSpeed, hpc := { s.hpc with ctrl := 32 } } ∧
      t.measSpeed.toNat = s.tPulses.toNat * 60 / s.cfg.windowConst

/-- R166: `CTL.FMT i` writes cell `i` and no other: a template byte, a digit of the commanded speed, or a digit of the
measured speed; above 9999 the measured-speed cells are free (R167). The template's text bytes are those of R63. -/
def Obligations.FormatWritesOneCell : Prop :=
  (textTemplate.toList.take 12 = [0x54, 0x41, 0x52, 0x47, 0x45, 0x54, 0x20, 0x52, 0x50, 0x4D, 0x2D, 0x20] ∧
   (textTemplate.toList.drop 16).take 12 =
     [0x41, 0x43, 0x54, 0x55, 0x41, 0x4C, 0x20, 0x52, 0x50, 0x4D, 0x2D, 0x20]) ∧
  ∀ (i : BitVec 5) (s : State),
    decodeSt (0b011#3 ++ i) = .ok (.ctlFmt i) ∧
    ∃ t v, exec (.ctlFmt i) s = .next t ∧
      t = { s with fb := t.fb, draws := t.draws, hpc := { s.hpc with ctrl := t.hpc.ctrl } } ∧
      memRead t i.toNat = some v ∧ (∀ a, a ≠ i.toNat → memRead t a = memRead s a) ∧
      ((i.toNat ≤ 11 ∨ (16 ≤ i.toNat ∧ i.toNat ≤ 27)) → v = textTemplate[i.toFin]) ∧
      (12 ≤ i.toNat → i.toNat ≤ 15 →
        v.toNat = 0x30 + s.cmdSpeed.toNat / 10 ^ (3 - (i.toNat - 12)) % 10) ∧
      (28 ≤ i.toNat → s.measSpeed.toNat ≤ 9999 →
        v.toNat = 0x30 + s.measSpeed.toNat / 10 ^ (3 - (i.toNat - 28)) % 10) ∧
      (i.toNat < 31 → t.hpc.ctrl.toNat = 33 + i.toNat) ∧ (i.toNat = 31 → t.hpc.ctrl = 6)

/-- R170, R62: after `CTL.FMT 0` to `CTL.FMT 31` the frame is the two texts with the two speeds in four digits, most
significant first, whatever it held before. The template's text bytes are those of R63. -/
def Obligations.FullFormatRendersBothSpeeds : Prop :=
  (textTemplate.toList.take 12 = [0x54, 0x41, 0x52, 0x47, 0x45, 0x54, 0x20, 0x52, 0x50, 0x4D, 0x2D, 0x20] ∧
   (textTemplate.toList.drop 16).take 12 =
     [0x41, 0x43, 0x54, 0x55, 0x41, 0x4C, 0x20, 0x52, 0x50, 0x4D, 0x2D, 0x20]) ∧
  ∀ s : State, s.cmdSpeed.toNat ≤ 9999 → s.measSpeed.toNat ≤ 9999 →
    ∃ t, execAll ((List.range 32).map fun k => Instr.ctlFmt (BitVec.ofNat 5 k)) s = .next t ∧ t.hpc.ctrl = 6 ∧
      ∀ a : Fin 32, ∃ v, memRead t a.val = some v ∧
        ((a.val ≤ 11 ∨ (16 ≤ a.val ∧ a.val ≤ 27)) → v = textTemplate[a]) ∧
        (12 ≤ a.val → a.val ≤ 15 → v.toNat = 0x30 + s.cmdSpeed.toNat / 10 ^ (15 - a.val) % 10) ∧
        (28 ≤ a.val → v.toNat = 0x30 + s.measSpeed.toNat / 10 ^ (31 - a.val) % 10)

/-- R168: `CTL.DUTY` takes the first of its three branches that holds, modulo 256, and appends to `DUTY_TRACE` in each. -/
def Obligations.DutyTakesOneOfThreeBranches : Prop :=
  decodeSt 0x46#8 = .ok .ctlDuty ∧
  ∀ s : State,
    ∃ t, exec .ctlDuty s = .next t ∧
      t = { s with duty := t.duty, dutyTrace := s.dutyTrace ++ [t.duty], hpc := { s.hpc with ctrl := 7 } } ∧
      (t.duty.toNat : Int) =
        (if s.cfg.minRpm ≤ s.measSpeed.toNat ∧ s.measSpeed.toNat ≤ s.cfg.maxRpm then
          (s.duty.toNat : Int) - Int.tdiv ((s.cmdSpeed.toNat : Int) - s.measSpeed.toNat) s.cfg.maxRpm * 255
         else if s.measSpeed.toNat ≤ s.cfg.minRpm then (s.duty.toNat : Int) - 1
         else (s.duty.toNat : Int) + 1) % 256

/-- R277: with `MIN_RPM ≥ 1` the in-range branch never changes `DUTY`. -/
def Obligations.ProportionalBranchIsDead : Prop :=
  ∀ s : State, s.cfg.valid = true → 1 ≤ s.cfg.minRpm →
    s.cfg.minRpm ≤ s.cmdSpeed.toNat → s.cmdSpeed.toNat ≤ s.cfg.maxRpm →
    s.cfg.minRpm ≤ s.measSpeed.toNat → s.measSpeed.toNat ≤ s.cfg.maxRpm →
    ∃ t, exec .ctlDuty s = .next t ∧ t.duty = s.duty

/-- R141: no operation of the control loop looks at `CURSOR`: changing it before the operation is changing it after. -/
def Obligations.ControlLoopDoesNotSeeTheCursor : Prop :=
  ∀ (i : Instr) (s : State) (k : Fin 33),
    (i ∈ [Instr.ctlDiv, .ctlTarget, .csEnter, .ctlPulses, .csExit, .ctlMeasure, .ctlDuty, .retCtrl] ∨
      ∃ j, i = .ctlFmt j) →
    exec i { s with cursor := k } = andThen (exec i s) fun t => .next { t with cursor := k }

/-! ### Display Refresh Sequencer -/

/-- R131: `RFR.SEL` branches on `INIT_DONE`, then on `CURSOR` 32, then 16. -/
def Obligations.RefreshBranchesOnTheCursor : Prop :=
  decodeSt 0x80#8 = .ok .rfrSel ∧
  ∀ s : State, exec .rfrSel s = .next { s with hpc := { s.hpc with med :=
    if s.initDone = false then 7 else if s.cursor.val = 32 then 1 else if s.cursor.val = 16 then 3 else 5 } }

/-- R132, R134: `RFR.HOME` and `RFR.LINE2` issue their command byte with `RS = 0` and `RW = 0`. -/
def Obligations.RefreshCommandsAreIssued : Prop :=
  (decodeSt 0x81#8 = .ok .rfrHome ∧ decodeSt 0x83#8 = .ok .rfrLine2) ∧
  ∀ s : State, s.ts = .idle →
    exec .rfrHome s = .next { s with tw := 0b00#2 ++ s.cfg.cmdHome, ts := .setup, hpc := { s.hpc with med := 2 } } ∧
    exec .rfrLine2 s = .next { s with tw := 0b00#2 ++ s.cfg.cmdLine2, ts := .setup, hpc := { s.hpc with med := 4 } }

/-- R136: `RFR.CHAR` reads the cell at `CURSOR` and issues it as data; the frame is not written. At `CURSOR = 32`,
which R131 excludes, there is no cell and the model faults (assumption log 12). -/
def Obligations.CharacterIsReadAndIssued : Prop :=
  decodeSt 0x85#8 = .ok .rfrChar ∧
  (∀ s : State, s.ts = .idle → s.cursor.val ≤ 31 →
    ∃ b, memRead s s.cursor.val = some b ∧
      exec .rfrChar s = .next { s with tByte := b, tw := 0b10#2 ++ b, ts := .setup, hpc := { s.hpc with med := 6 } }) ∧
  (∀ s : State, s.cursor.val = 32 → exec .rfrChar s = .fault .noSuchCell)

/-- R133, R135, R137: with the transport idle, `RFR.HOMEW` resets the cursor, `RFR.LINE2W` goes on to the character, and
`RFR.CHARW` advances the cursor by one, 31 becoming 32. -/
def Obligations.RefreshWaitsGoOn : Prop :=
  (decodeSt 0x82#8 = .ok .rfrHomew ∧ decodeSt 0x84#8 = .ok .rfrLine2w ∧ decodeSt 0x86#8 = .ok .rfrCharw) ∧
  ∀ s : State, s.ts = .idle →
    exec .rfrHomew s = .next { s with cursor := 0, hpc := { s.hpc with med := 7 } } ∧
    exec .rfrLine2w s = .next { s with hpc := { s.hpc with med := 5 } } ∧
    (s.cursor.val ≤ 31 →
      ∃ t, exec .rfrCharw s = .next t ∧ t.cursor.val = s.cursor.val + 1 ∧
        t = { s with cursor := t.cursor, hpc := { s.hpc with med := 7 } })

/-- R140: one refresh cycle of 33 served medium ticks sends the sixteen characters of line 1, the line-2 command, the
sixteen characters of line 2 and the home command, and ends with the cursor at 0 and the frame unchanged. With
interrupts enabled and no handler of `MED` or `FAST` active or fast tick pending, each operation of the cycle is the one
the state selects when its turn comes. -/
def Obligations.RefreshCycleSendsTheFrame : Prop :=
  ∀ s : State, s.initDone = true → s.ts = .idle → s.cursor = 0 →
    (∃ t, execAll (refreshActivations 33) s = .next t ∧ t.cursor = 0 ∧ t.ts = .idle ∧
      (∀ a, memRead t a = memRead s a) ∧
      t.lcdTrace = s.lcdTrace ++
        (List.range 16).map (fun a => (true, (memRead s a).getD 0)) ++ [(false, s.cfg.cmdLine2)] ++
        (List.range 16).map (fun a => (true, (memRead s (16 + a)).getD 0)) ++ [(false, s.cfg.cmdHome)]) ∧
    (s.rstActive = false → s.ien = true → s.pend.fast = false → s.act.fast = false → s.act.med = false →
      Follows (refreshActivations 33) s)

/-- One medium tick and a ready for each transaction, from a quiescent background with init complete: at every cursor the
block's own run dispatches `MED`, sends the character at the cursor (after the line-2 command at 16), or at 32 the home
command instead, returns, and is quiescent again with the cursor one further, or at 0 (R140, R208, R150, R209). -/
def Obligations.MediumTickRunsTheRefresh : Prop :=
  ∀ (s : State) (rest : List Turn), s.cfg.valid = true → s.rstActive = false → s.initDone = true → s.ien = true →
    s.hpc.bg = 1 → s.pend = ⟨false, false, false⟩ → s.act = ⟨false, false, false⟩ → s.ts = .idle →
    s.agenda = refreshTurns s.cursor.val ++ rest →
    ∃ (k : Nat) (t : State), Host.Core.run Sys2Proof.core k s = .next t ∧ t.agenda = rest ∧
      t.lcdTrace = s.lcdTrace ++ refreshWords s ∧
      t.cursor.val = (if s.cursor.val = 32 then 0 else s.cursor.val + 1) ∧
      t.pend = s.pend ∧ t.act = s.act ∧ t.ovr = s.ovr ∧ t.ien = true ∧ quiescent t = true ∧
      ∀ a, memRead t a = memRead s a

/-! ### Display Init Sequencer -/

/-- R111: `INI.TICK` does nothing but return when init is complete; otherwise it counts, and selects the entry whose tick
count equals the new count, if there is one. (`INIT_MS + 1` past 16 bits, which R111 excludes, is refused: assumption
log 13.) -/
def Obligations.InitTickLooksUpTheSchedule : Prop :=
  decodeSt 0xC0#8 = .ok .iniTick ∧
  (∀ s : State, s.initDone = true → exec .iniTick s = .next { s with hpc := { s.hpc with fast := 3 } }) ∧
  (∀ (s : State) (i : Fin 8), s.cfg.valid = true → s.initDone = false →
    s.initMs.toNat + 1 = s.cfg.schedT[i].toNat →
    exec .iniTick s = .next { s with initMs := s.initMs + 1, tSel := i, hpc := { s.hpc with fast := 1 } }) ∧
  (∀ s : State, s.initDone = false → s.initMs.toNat < 65535 →
    (∀ i : Fin 8, s.initMs.toNat + 1 ≠ s.cfg.schedT[i].toNat) →
    exec .iniTick s = .next { s with initMs := s.initMs + 1, hpc := { s.hpc with fast := 3 } })

/-- R112, R64: `INI.CMD` issues the command of entry `T_SEL`: entries 0 to 3 function set, then display off, display
clear, entry mode set, display on. It emits the transport word of that command. -/
def Obligations.InitCommandIssuesTheScheduledWord : Prop :=
  decodeSt 0xC1#8 = .ok .iniCmd ∧
  (∀ s : State, s.ts = .idle →
    exec .iniCmd s = .next { s with tw := 0b00#2 ++ scheduleCommand s.cfg s.tSel, ts := .setup,
                                    hpc := { s.hpc with fast := 2 } }) ∧
  (∀ p : Params,
    (∀ i : Fin 8, i.val ≤ 3 → scheduleCommand p i = p.cmdFunctionSet) ∧ scheduleCommand p 4 = p.cmdDisplayOff ∧
    scheduleCommand p 5 = p.cmdDisplayClear ∧ scheduleCommand p 6 = p.cmdEntryMode ∧
    scheduleCommand p 7 = p.cmdDisplayOn) ∧
  (∀ (s : State) (i : Instr),
    ((s.tSel.val ≤ 3 ∧ i = .lcdFuncset) ∨ (s.tSel = 4 ∧ i = .lcdDispoff) ∨ (s.tSel = 5 ∧ i = .lcdClear) ∨
     (s.tSel = 6 ∧ i = .lcdEntrymode) ∨ (s.tSel = 7 ∧ i = .lcdDispon)) →
    exec .iniCmd s = andThen (exec i s) fun t => .next { t with hpc := { t.hpc with fast := 2 } })

/-- R113: with the transport idle, `INI.CMDW` returns, and after the last entry records that init is complete. -/
def Obligations.LastCommandCompletesInit : Prop :=
  decodeSt 0xC2#8 = .ok .iniCmdw ∧
  ∀ s : State, s.ts = .idle →
    exec .iniCmdw s = .next (if s.tSel = 7 then { s with initDone := true, hpc := { s.hpc with fast := 3 } }
      else { s with hpc := { s.hpc with fast := 3 } })

/-- R122, R45 (c): `INIT_DONE` never goes back to 0 and `INIT_MS` never decreases, except by reset. -/
def Obligations.InitNeverReverts : Prop :=
  ∀ s t : State, step s = .next t →
    (∃ w rest, s.agenda = .event w :: rest ∧ w.getLsbD 6 = true) ∨
    ((s.initDone = true → t.initDone = true) ∧ s.initMs.toNat ≤ t.initMs.toNat)

/-- R126: from a state with the init registers at reset, if every transaction completes, init is complete after exactly
`SCHED_T[7]` served fast ticks and not before, and the eight scheduled commands have been sent in order. With interrupts
enabled and `FAST` not active, each operation of the sequence is the one the state selects when its turn comes. -/
def Obligations.InitSendsTheScheduleThenCompletes : Prop :=
  ∀ s : State, s.cfg.valid = true → s.initMs = 0 → s.initDone = false → s.ts = .idle →
    (∀ n, n < s.cfg.schedT[7].toNat →
      ∃ t, execAll (initActivations s.cfg n) s = .next t ∧ t.initDone = false ∧ t.initMs.toNat = n) ∧
    (∃ t, execAll (initActivations s.cfg s.cfg.schedT[7].toNat) s = .next t ∧ t.initDone = true ∧
      t.initMs = s.cfg.schedT[7] ∧
      t.lcdTrace = s.lcdTrace ++
        [(false, s.cfg.cmdFunctionSet), (false, s.cfg.cmdFunctionSet), (false, s.cfg.cmdFunctionSet),
         (false, s.cfg.cmdFunctionSet), (false, s.cfg.cmdDisplayOff), (false, s.cfg.cmdDisplayClear),
         (false, s.cfg.cmdEntryMode), (false, s.cfg.cmdDisplayOn)]) ∧
    (s.rstActive = false → s.ien = true → s.act.fast = false →
      Follows (initActivations s.cfg s.cfg.schedT[7].toNat) s)

/-- R124: if `FAST` stands at `INI.CMDW` with a transaction in flight and neither `EV.READY` nor a reset is to come, then
after any number of steps it still stands there, and no other context has run: a stuck state, not a fault. -/
def Obligations.InitStallsForeverWithoutReady : Prop :=
  ∀ (k : Nat) (s : State), s.cfg.valid = true → s.act.fast = true → s.hpc.fast = 2 → s.ts ≠ .idle →
    (∀ w, Turn.event w ∈ s.agenda → w.getLsbD 4 = false ∧ w.getLsbD 6 = false) →
    ∃ t : State, Host.Core.run Sys2Proof.core k s = .next t ∧ t.act.fast = true ∧ t.hpc.fast = 2 ∧ t.ts ≠ .idle ∧
      t.act = s.act ∧ t.hpc.med = s.hpc.med ∧ t.hpc.ctrl = s.hpc.ctrl ∧
      t.initDone = s.initDone ∧ t.initMs = s.initMs ∧ t.tSel = s.tSel ∧ t.tw = s.tw ∧
      t.cursor = s.cursor ∧ t.tByte = s.tByte ∧
      t.sampleCnt = s.sampleCnt ∧ t.tAdc = s.tAdc ∧ t.cmdSpeed = s.cmdSpeed ∧ t.tPulses = s.tPulses ∧
      t.measSpeed = s.measSpeed ∧ t.duty = s.duty ∧ t.dutyTrace = s.dutyTrace ∧ t.ienSave = s.ienSave ∧
      ∀ a, memRead t a = memRead s a

/-! ### Transport -/

/-- R148, R149: `TRN.EHI` raises the enable; `TRN.ELO` drops it, and the panel latches exactly one entry. -/
def Obligations.TransportPulsesTheEnable : Prop :=
  (decodeTp 0b01#2 = .ok .trnEhi ∧ decodeTp 0b10#2 = .ok .trnElo) ∧
  ∀ s : State,
    exec .trnEhi s = .next { s with ts := .ehi } ∧
    exec .trnElo s = .next { s with
      ts := .settle, lcdTrace := s.lcdTrace ++ [(s.tw.getLsbD 9, s.tw.extractLsb' 0 8)] }

/-- The emission of each transport word is `issue` with its register-select value and byte, from an idle transport. That
the meaning of a word is its emission is the model's reading (assumption log 17). -/
def Obligations.TransportWordsAreIssued : Prop :=
  ∀ (s : State) (d : Byte), s.ts = .idle →
    exec .lcdFuncset s = .next { s with tw := 0b00#2 ++ s.cfg.cmdFunctionSet, ts := .setup } ∧
    exec .lcdDispoff s = .next { s with tw := 0b00#2 ++ s.cfg.cmdDisplayOff, ts := .setup } ∧
    exec .lcdClear s = .next { s with tw := 0b00#2 ++ s.cfg.cmdDisplayClear, ts := .setup } ∧
    exec .lcdEntrymode s = .next { s with tw := 0b00#2 ++ s.cfg.cmdEntryMode, ts := .setup } ∧
    exec .lcdDispon s = .next { s with tw := 0b00#2 ++ s.cfg.cmdDisplayOn, ts := .setup } ∧
    exec .lcdLine2 s = .next { s with tw := 0b00#2 ++ s.cfg.cmdLine2, ts := .setup } ∧
    exec .lcdHome s = .next { s with tw := 0b00#2 ++ s.cfg.cmdHome, ts := .setup } ∧
    exec (.lcdData d) s = .next { s with tw := 0b10#2 ++ d, ts := .setup }

/-- R147, R275: an `issue` while the transport is not idle is refused, in every operation that issues. That the eight
transport words are such operations is the model's reading (assumption log 17). -/
def Obligations.IssueWithBusyTransportIsRefused : Prop :=
  ∀ (s : State) (i : Instr), s.ts ≠ .idle →
    ((i ∈ [Instr.iniCmd, .rfrHome, .rfrLine2, .lcdFuncset, .lcdDispoff, .lcdClear, .lcdEntrymode, .lcdDispon,
           .lcdLine2, .lcdHome] ∨ ∃ d, i = .lcdData d) ∨ (i = .rfrChar ∧ s.cursor.val ≤ 31)) →
    exec i s = .refused .transportBusy

/-- R22, R39, R146: the output ports show their registers; `lcd_e = 1` exactly when `TS = EHI`. R90, R153: `lcd_rw` is 0
in every state that meets the invariant. -/
def Obligations.PinsShowTheRegisters : Prop :=
  (∀ s : State, s.Inv → s.pins.lcdRw = false) ∧
  ∀ s : State, s.pins.duty = s.duty ∧ s.pins.initDone = s.initDone ∧ s.pins.lcdRs = s.tw.getLsbD 9 ∧
    s.pins.lcdRw = s.tw.getLsbD 8 ∧ s.pins.lcdD.toNat = s.tw.toNat % 256 ∧ (s.pins.lcdE = true ↔ s.ts = .ehi)

/-! ### Whole machine -/

/-- R44: the single-writer table, row by row: an operation that is not a reset changes a register or a cell only if it is
one of the writers. A step register is written by the operations of its own context, by the dispatch of that context and,
for the background, by `EV.START`. That the transport words write `TS` and `TW` is the model's reading
(assumption log 17). -/
def Obligations.EveryRegisterHasItsWriter : Prop :=
  ∀ (i : Instr) (s t : State), exec i s = .next t → i ≠ .evRst →
    (t.duty ≠ s.duty → i = .ctlDuty) ∧
    (t.cmdSpeed ≠ s.cmdSpeed → i = .ctlTarget) ∧ (t.tAdc ≠ s.tAdc → i = .ctlTarget) ∧
    (t.measSpeed ≠ s.measSpeed → i = .ctlMeasure) ∧
    (t.tPulses ≠ s.tPulses → i = .ctlPulses) ∧
    (t.sampleCnt ≠ s.sampleCnt → i = .ctlDiv) ∧
    (t.pulseCnt ≠ s.pulseCnt → i = .evPulse ∨ i = .ctlPulses) ∧
    (t.cursor ≠ s.cursor → i = .rfrHomew ∨ i = .rfrCharw) ∧ (t.tByte ≠ s.tByte → i = .rfrChar) ∧
    (t.initMs ≠ s.initMs → i = .iniTick) ∧ (t.tSel ≠ s.tSel → i = .iniTick) ∧
    (t.initDone ≠ s.initDone → i = .iniCmdw) ∧
    (t.ien ≠ s.ien → i = .evStart ∨ i = .bgStart ∨ i = .csEnter ∨ i = .csExit) ∧
    (t.ienSave ≠ s.ienSave → i = .csEnter) ∧
    (t.ts ≠ s.ts →
      i ∈ [Instr.iniCmd, .rfrHome, .rfrLine2, .rfrChar, .trnEhi, .trnElo, .trnDone, .evReady,
           .lcdFuncset, .lcdDispoff, .lcdClear, .lcdEntrymode, .lcdDispon, .lcdLine2, .lcdHome] ∨
      ∃ d, i = .lcdData d) ∧
    (t.tw ≠ s.tw →
      i ∈ [Instr.iniCmd, .rfrHome, .rfrLine2, .rfrChar,
           .lcdFuncset, .lcdDispoff, .lcdClear, .lcdEntrymode, .lcdDispon, .lcdLine2, .lcdHome] ∨
      ∃ d, i = .lcdData d) ∧
    (∀ src, t.pend.get src ≠ s.pend.get src → i = tickOf src ∨ i = dispatchOf src) ∧
    (∀ src, t.ovr.get src ≠ s.ovr.get src → i = tickOf src) ∧
    (∀ src, t.act.get src ≠ s.act.get src → i = dispatchOf src ∨ i = returnOf src) ∧
    (∀ c, t.hpc.get c ≠ s.hpc.get c →
      (∃ n : BitVec 6, decodeSt (c.code ++ n) = .ok i) ∨ (∃ src, src.context = c ∧ i = dispatchOf src) ∨
      (c = .bg ∧ i = .evStart)) ∧
    (∀ a, memRead t a ≠ memRead s a → i = .ctlFmt (BitVec.ofNat 5 a)) ∧
    (t.lcdTrace ≠ s.lcdTrace → i = .trnElo) ∧ (t.dutyTrace ≠ s.dutyTrace → i = .ctlDuty) ∧
    t.rstActive = s.rstActive ∧ t.cfg = s.cfg ∧ t.adc = s.adc ∧ t.agenda = s.agenda

/-- R65: the only operation that stores to the frame buffer, reset apart, is `CTL.FMT`; every other one leaves every
cell as it reads. -/
def Obligations.OnlyFormatStoresToTheFrame : Prop :=
  ∀ (i : Instr) (s t : State), exec i s = .next t → (∀ j, i ≠ .ctlFmt j) → i ≠ .evRst →
    ∀ a, memRead t a = memRead s a

/-- The state after reset meets the invariant. -/
def Obligations.ResetMeetsTheInvariant : Prop :=
  State.reset.Inv

/-- R45: every step keeps the invariant, whatever the environment does and whatever the parameters are. -/
def Obligations.StepKeepsTheInvariant : Prop :=
  ∀ s t : State, s.Inv → step s = .next t → t.Inv

/-- R230: no operation of a state that meets the invariant raises anything: the machine never stops with a fault or a
refusal. -/
def Obligations.MachineNeverStopsUnderTheInvariant : Prop :=
  ∀ s : State, s.Inv → ∃ t, step s = .next t

/-- R102, R43: a block at rest with reset not active has no transaction in flight, or one waiting for `EV.READY`; it is
quiescent in the first case only. Without an event or a new `adc` level to come it stays exactly as it is, for any number
of steps: only the turns pass (assumption log 7). -/
def Obligations.RestingBlockWaitsForTheEnvironment : Prop :=
  (∀ s : State, s.rstActive = false → atRest s = true →
    (s.ts = .idle ∧ quiescent s = true) ∨ (s.ts = .settle ∧ quiescent s = false)) ∧
  (∀ s : State, s.ts ≠ .idle → quiescent s = false) ∧
  ∀ (k : Nat) (s : State), s.cfg.valid = true → atRest s = true →
    (∀ u ∈ s.agenda, u = .machine ∨ u = .transport ∨ u = .run) →
    ∃ rest, Host.Core.run Sys2Proof.core k s = .next { s with agenda := rest }
end

