-- ==== Sys2Proof/Laws/Memory.lean ====
section
/-! SUPPORT. The laws of the frame buffer: a read after a write, and the canonical form. -/

namespace Sys2Proof.Machine

theorem Memory.find_insert_other {a b : Nat} (h : b ≠ a) (v : Byte) (m : List Host.Cell) :
    (Memory.insert a v m).find? (fun c => c.1 == b) = m.find? (fun c => c.1 == b) := by
  have hab : (a == b) = false := by simpa using fun e => h e.symm
  induction m with
  | nil => simp [Memory.insert, hab]
  | cons c m ih =>
    unfold Memory.insert
    split
    · simp [List.find?_cons, hab]
    · simp [List.find?_cons, ih]

theorem Memory.find_filter_other {a b : Nat} (h : b ≠ a) (m : List Host.Cell) :
    (m.filter (fun c => c.1 != a)).find? (fun c => c.1 == b) = m.find? (fun c => c.1 == b) := by
  rw [List.find?_filter]
  congr 1
  funext c
  by_cases hc : c.1 = b <;> simp [hc, h]

theorem Memory.find_insert_same (a : Nat) (v : Byte) (m : List Host.Cell) (h : ∀ c ∈ m, c.1 ≠ a) :
    (Memory.insert a v m).find? (fun c => c.1 == a) = some (a, v) := by
  induction m with
  | nil => simp [Memory.insert]
  | cons c m ih =>
    unfold Memory.insert
    split
    · simp
    · have hc : (c.1 == a) = false := by simpa using h c (by simp)
      simp [hc, ih fun d hd => h d (by simp [hd])]

/-- A read of another cell after a write is the read before it. -/
theorem Memory.cell_store_other (base : Vector Byte 32) (m : List Host.Cell) {a b : Nat} (h : b ≠ a) (v : Byte) :
    Memory.cell base (Memory.store base m a v) b = Memory.cell base m b := by
  unfold Memory.cell Memory.store
  by_cases hv : v = Memory.unlisted base a
  · rw [if_pos hv, Memory.find_filter_other h]
  · rw [if_neg hv, Memory.find_insert_other h, Memory.find_filter_other h]

/-- A read of a cell after a write to it is the written byte. -/
theorem Memory.cell_store_same (base : Vector Byte 32) (m : List Host.Cell) (a : Nat) (v : Byte) :
    Memory.cell base (Memory.store base m a v) a = v := by
  unfold Memory.cell Memory.store
  by_cases hv : v = Memory.unlisted base a
  · have : (m.filter (fun c => c.1 != a)).find? (fun c => c.1 == a) = none := by
      simp [List.find?_filter]
    rw [if_pos hv, this, hv]
  · rw [if_neg hv, Memory.find_insert_same a v _ fun c hc => by simpa using (List.mem_filter.mp hc).2]

theorem Memory.wfFrom_mono {base : Vector Byte 32} {m : List Host.Cell} {low low' : Nat} (hl : low' ≤ low)
    (h : Memory.wfFrom base low m = true) : Memory.wfFrom base low' m = true := by
  cases m with
  | nil => rfl
  | cons c m =>
    simp only [Memory.wfFrom, Bool.and_eq_true, decide_eq_true_eq] at h ⊢
    exact ⟨⟨⟨by omega, h.1.1.2⟩, h.1.2⟩, h.2⟩

theorem Memory.wfFrom_filter {base : Vector Byte 32} (p : Host.Cell → Bool) {m : List Host.Cell} {low : Nat}
    (h : Memory.wfFrom base low m = true) : Memory.wfFrom base low (m.filter p) = true := by
  induction m generalizing low with
  | nil => rfl
  | cons c m ih =>
    simp only [Memory.wfFrom, Bool.and_eq_true, decide_eq_true_eq] at h
    cases hp : p c
    · rw [List.filter_cons_of_neg (by simp [hp])]
      exact Memory.wfFrom_mono (by omega) (ih h.2)
    · rw [List.filter_cons_of_pos hp]
      simp only [Memory.wfFrom, Bool.and_eq_true, decide_eq_true_eq]
      exact ⟨⟨⟨h.1.1.1, h.1.1.2⟩, h.1.2⟩, ih h.2⟩

theorem Memory.wfFrom_insert {base : Vector Byte 32} {a : Nat} {v : Byte} (ha : a < 32)
    (hv : v ≠ Memory.unlisted base a) {m : List Host.Cell} {low : Nat} (hlow : low ≤ a) (hm : ∀ c ∈ m, c.1 ≠ a)
    (h : Memory.wfFrom base low m = true) : Memory.wfFrom base low (Memory.insert a v m) = true := by
  induction m generalizing low with
  | nil => simp [Memory.insert, Memory.wfFrom, hlow, ha, hv]
  | cons c m ih =>
    have hca := hm c (by simp)
    simp only [Memory.wfFrom, Bool.and_eq_true, decide_eq_true_eq] at h
    unfold Memory.insert
    split
    · simp only [Memory.wfFrom, Bool.and_eq_true, decide_eq_true_eq]
      exact ⟨⟨⟨hlow, ha⟩, hv⟩, ⟨⟨⟨by omega, h.1.1.2⟩, h.1.2⟩, h.2⟩⟩
    · simp only [Memory.wfFrom, Bool.and_eq_true, decide_eq_true_eq]
      exact ⟨⟨⟨h.1.1.1, h.1.1.2⟩, h.1.2⟩, ih (by omega) (fun d hd => hm d (by simp [hd])) h.2⟩

/-- A write keeps the canonical form. -/
theorem Memory.wf_store {base : Vector Byte 32} {m : List Host.Cell} {a : Nat} (ha : a < 32) (v : Byte)
    (h : Memory.wf base m = true) : Memory.wf base (Memory.store base m a v) = true := by
  unfold Memory.wf Memory.store at *
  split
  · exact Memory.wfFrom_filter _ h
  · next hv =>
    exact Memory.wfFrom_insert ha hv (by omega) (fun c hc => by simpa using (List.mem_filter.mp hc).2)
      (Memory.wfFrom_filter _ h)

/-- The memory after reset is in the canonical form. -/
theorem reset_memory_wf : Memory.wf State.reset.cfg.fbReset State.reset.fb = true := rfl

/-- What `MemWrite` can do: inside the frame it stores, outside it faults. -/
theorem memWrite_next {a : Nat} {v : Byte} {s t : State} (h : memWrite a v s = .next t) :
    a < 32 ∧ t = { s with fb := Memory.store s.cfg.fbReset s.fb a v } := by
  unfold memWrite at h
  split at h
  · next ha => exact ⟨ha, by injection h with h; exact h.symm⟩
  · cases h

/-- What `MemWrite` does to every cell. -/
theorem memRead_after_memWrite {a : Nat} {v : Byte} {s t : State} (h : memWrite a v s = .next t) (b : Nat) :
    memRead t b = if b = a then some v else memRead s b := by
  obtain ⟨ha, rfl⟩ := memWrite_next h
  by_cases hb : b = a
  · subst hb; simp [memRead, ha, Memory.cell_store_same, frameLength]
  · simp [memRead, hb, Memory.cell_store_other _ _ hb]

/-- `MemWrite` keeps the canonical form. -/
theorem memWrite_wf {a : Nat} {v : Byte} {s t : State} (h : memWrite a v s = .next t)
    (hw : Memory.wf s.cfg.fbReset s.fb = true) : Memory.wf t.cfg.fbReset t.fb = true := by
  obtain ⟨ha, rfl⟩ := memWrite_next h
  exact Memory.wf_store ha v hw

end Sys2Proof.Machine
end

