-- ==== Sys2Proof/Laws/State.lean ====
section
/-! SUPPORT. One lemma per field per named update of the state, so that no proof unfolds an update. -/

namespace Sys2Proof.Machine

/-! ### `setStep` -/

@[simp] theorem State.setStep_cfg (s : State) (c : Context) (n : BitVec 6) : (s.setStep c n).cfg = s.cfg := rfl
@[simp] theorem State.setStep_adc (s : State) (c : Context) (n : BitVec 6) : (s.setStep c n).adc = s.adc := rfl
@[simp] theorem State.setStep_rstActive (s : State) (c : Context) (n : BitVec 6) : (s.setStep c n).rstActive = s.rstActive := rfl
@[simp] theorem State.setStep_duty (s : State) (c : Context) (n : BitVec 6) : (s.setStep c n).duty = s.duty := rfl
@[simp] theorem State.setStep_cmdSpeed (s : State) (c : Context) (n : BitVec 6) : (s.setStep c n).cmdSpeed = s.cmdSpeed := rfl
@[simp] theorem State.setStep_measSpeed (s : State) (c : Context) (n : BitVec 6) : (s.setStep c n).measSpeed = s.measSpeed := rfl
@[simp] theorem State.setStep_pulseCnt (s : State) (c : Context) (n : BitVec 6) : (s.setStep c n).pulseCnt = s.pulseCnt := rfl
@[simp] theorem State.setStep_tAdc (s : State) (c : Context) (n : BitVec 6) : (s.setStep c n).tAdc = s.tAdc := rfl
@[simp] theorem State.setStep_tPulses (s : State) (c : Context) (n : BitVec 6) : (s.setStep c n).tPulses = s.tPulses := rfl
@[simp] theorem State.setStep_tSel (s : State) (c : Context) (n : BitVec 6) : (s.setStep c n).tSel = s.tSel := rfl
@[simp] theorem State.setStep_tByte (s : State) (c : Context) (n : BitVec 6) : (s.setStep c n).tByte = s.tByte := rfl
@[simp] theorem State.setStep_hpc (s : State) (c : Context) (n : BitVec 6) : (s.setStep c n).hpc = s.hpc.set c n := rfl
@[simp] theorem State.setStep_initMs (s : State) (c : Context) (n : BitVec 6) : (s.setStep c n).initMs = s.initMs := rfl
@[simp] theorem State.setStep_initDone (s : State) (c : Context) (n : BitVec 6) : (s.setStep c n).initDone = s.initDone := rfl
@[simp] theorem State.setStep_cursor (s : State) (c : Context) (n : BitVec 6) : (s.setStep c n).cursor = s.cursor := rfl
@[simp] theorem State.setStep_sampleCnt (s : State) (c : Context) (n : BitVec 6) : (s.setStep c n).sampleCnt = s.sampleCnt := rfl
@[simp] theorem State.setStep_ien (s : State) (c : Context) (n : BitVec 6) : (s.setStep c n).ien = s.ien := rfl
@[simp] theorem State.setStep_ienSave (s : State) (c : Context) (n : BitVec 6) : (s.setStep c n).ienSave = s.ienSave := rfl
@[simp] theorem State.setStep_pend (s : State) (c : Context) (n : BitVec 6) : (s.setStep c n).pend = s.pend := rfl
@[simp] theorem State.setStep_act (s : State) (c : Context) (n : BitVec 6) : (s.setStep c n).act = s.act := rfl
@[simp] theorem State.setStep_ovr (s : State) (c : Context) (n : BitVec 6) : (s.setStep c n).ovr = s.ovr := rfl
@[simp] theorem State.setStep_ts (s : State) (c : Context) (n : BitVec 6) : (s.setStep c n).ts = s.ts := rfl
@[simp] theorem State.setStep_tw (s : State) (c : Context) (n : BitVec 6) : (s.setStep c n).tw = s.tw := rfl
@[simp] theorem State.setStep_fb (s : State) (c : Context) (n : BitVec 6) : (s.setStep c n).fb = s.fb := rfl
@[simp] theorem State.setStep_lcdTrace (s : State) (c : Context) (n : BitVec 6) : (s.setStep c n).lcdTrace = s.lcdTrace := rfl
@[simp] theorem State.setStep_dutyTrace (s : State) (c : Context) (n : BitVec 6) : (s.setStep c n).dutyTrace = s.dutyTrace := rfl
@[simp] theorem State.setStep_agenda (s : State) (c : Context) (n : BitVec 6) : (s.setStep c n).agenda = s.agenda := rfl
@[simp] theorem State.setStep_draws (s : State) (c : Context) (n : BitVec 6) : (s.setStep c n).draws = s.draws := rfl

/-! ### `setPend` -/

@[simp] theorem State.setPend_cfg (s : State) (src : Source) (v : Bool) : (s.setPend src v).cfg = s.cfg := rfl
@[simp] theorem State.setPend_adc (s : State) (src : Source) (v : Bool) : (s.setPend src v).adc = s.adc := rfl
@[simp] theorem State.setPend_rstActive (s : State) (src : Source) (v : Bool) : (s.setPend src v).rstActive = s.rstActive := rfl
@[simp] theorem State.setPend_duty (s : State) (src : Source) (v : Bool) : (s.setPend src v).duty = s.duty := rfl
@[simp] theorem State.setPend_cmdSpeed (s : State) (src : Source) (v : Bool) : (s.setPend src v).cmdSpeed = s.cmdSpeed := rfl
@[simp] theorem State.setPend_measSpeed (s : State) (src : Source) (v : Bool) : (s.setPend src v).measSpeed = s.measSpeed := rfl
@[simp] theorem State.setPend_pulseCnt (s : State) (src : Source) (v : Bool) : (s.setPend src v).pulseCnt = s.pulseCnt := rfl
@[simp] theorem State.setPend_tAdc (s : State) (src : Source) (v : Bool) : (s.setPend src v).tAdc = s.tAdc := rfl
@[simp] theorem State.setPend_tPulses (s : State) (src : Source) (v : Bool) : (s.setPend src v).tPulses = s.tPulses := rfl
@[simp] theorem State.setPend_tSel (s : State) (src : Source) (v : Bool) : (s.setPend src v).tSel = s.tSel := rfl
@[simp] theorem State.setPend_tByte (s : State) (src : Source) (v : Bool) : (s.setPend src v).tByte = s.tByte := rfl
@[simp] theorem State.setPend_hpc (s : State) (src : Source) (v : Bool) : (s.setPend src v).hpc = s.hpc := rfl
@[simp] theorem State.setPend_initMs (s : State) (src : Source) (v : Bool) : (s.setPend src v).initMs = s.initMs := rfl
@[simp] theorem State.setPend_initDone (s : State) (src : Source) (v : Bool) : (s.setPend src v).initDone = s.initDone := rfl
@[simp] theorem State.setPend_cursor (s : State) (src : Source) (v : Bool) : (s.setPend src v).cursor = s.cursor := rfl
@[simp] theorem State.setPend_sampleCnt (s : State) (src : Source) (v : Bool) : (s.setPend src v).sampleCnt = s.sampleCnt := rfl
@[simp] theorem State.setPend_ien (s : State) (src : Source) (v : Bool) : (s.setPend src v).ien = s.ien := rfl
@[simp] theorem State.setPend_ienSave (s : State) (src : Source) (v : Bool) : (s.setPend src v).ienSave = s.ienSave := rfl
@[simp] theorem State.setPend_pend (s : State) (src : Source) (v : Bool) : (s.setPend src v).pend = s.pend.set src v := rfl
@[simp] theorem State.setPend_act (s : State) (src : Source) (v : Bool) : (s.setPend src v).act = s.act := rfl
@[simp] theorem State.setPend_ovr (s : State) (src : Source) (v : Bool) : (s.setPend src v).ovr = s.ovr := rfl
@[simp] theorem State.setPend_ts (s : State) (src : Source) (v : Bool) : (s.setPend src v).ts = s.ts := rfl
@[simp] theorem State.setPend_tw (s : State) (src : Source) (v : Bool) : (s.setPend src v).tw = s.tw := rfl
@[simp] theorem State.setPend_fb (s : State) (src : Source) (v : Bool) : (s.setPend src v).fb = s.fb := rfl
@[simp] theorem State.setPend_lcdTrace (s : State) (src : Source) (v : Bool) : (s.setPend src v).lcdTrace = s.lcdTrace := rfl
@[simp] theorem State.setPend_dutyTrace (s : State) (src : Source) (v : Bool) : (s.setPend src v).dutyTrace = s.dutyTrace := rfl
@[simp] theorem State.setPend_agenda (s : State) (src : Source) (v : Bool) : (s.setPend src v).agenda = s.agenda := rfl
@[simp] theorem State.setPend_draws (s : State) (src : Source) (v : Bool) : (s.setPend src v).draws = s.draws := rfl

/-! ### `setAct` -/

@[simp] theorem State.setAct_cfg (s : State) (src : Source) (v : Bool) : (s.setAct src v).cfg = s.cfg := rfl
@[simp] theorem State.setAct_adc (s : State) (src : Source) (v : Bool) : (s.setAct src v).adc = s.adc := rfl
@[simp] theorem State.setAct_rstActive (s : State) (src : Source) (v : Bool) : (s.setAct src v).rstActive = s.rstActive := rfl
@[simp] theorem State.setAct_duty (s : State) (src : Source) (v : Bool) : (s.setAct src v).duty = s.duty := rfl
@[simp] theorem State.setAct_cmdSpeed (s : State) (src : Source) (v : Bool) : (s.setAct src v).cmdSpeed = s.cmdSpeed := rfl
@[simp] theorem State.setAct_measSpeed (s : State) (src : Source) (v : Bool) : (s.setAct src v).measSpeed = s.measSpeed := rfl
@[simp] theorem State.setAct_pulseCnt (s : State) (src : Source) (v : Bool) : (s.setAct src v).pulseCnt = s.pulseCnt := rfl
@[simp] theorem State.setAct_tAdc (s : State) (src : Source) (v : Bool) : (s.setAct src v).tAdc = s.tAdc := rfl
@[simp] theorem State.setAct_tPulses (s : State) (src : Source) (v : Bool) : (s.setAct src v).tPulses = s.tPulses := rfl
@[simp] theorem State.setAct_tSel (s : State) (src : Source) (v : Bool) : (s.setAct src v).tSel = s.tSel := rfl
@[simp] theorem State.setAct_tByte (s : State) (src : Source) (v : Bool) : (s.setAct src v).tByte = s.tByte := rfl
@[simp] theorem State.setAct_hpc (s : State) (src : Source) (v : Bool) : (s.setAct src v).hpc = s.hpc := rfl
@[simp] theorem State.setAct_initMs (s : State) (src : Source) (v : Bool) : (s.setAct src v).initMs = s.initMs := rfl
@[simp] theorem State.setAct_initDone (s : State) (src : Source) (v : Bool) : (s.setAct src v).initDone = s.initDone := rfl
@[simp] theorem State.setAct_cursor (s : State) (src : Source) (v : Bool) : (s.setAct src v).cursor = s.cursor := rfl
@[simp] theorem State.setAct_sampleCnt (s : State) (src : Source) (v : Bool) : (s.setAct src v).sampleCnt = s.sampleCnt := rfl
@[simp] theorem State.setAct_ien (s : State) (src : Source) (v : Bool) : (s.setAct src v).ien = s.ien := rfl
@[simp] theorem State.setAct_ienSave (s : State) (src : Source) (v : Bool) : (s.setAct src v).ienSave = s.ienSave := rfl
@[simp] theorem State.setAct_pend (s : State) (src : Source) (v : Bool) : (s.setAct src v).pend = s.pend := rfl
@[simp] theorem State.setAct_act (s : State) (src : Source) (v : Bool) : (s.setAct src v).act = s.act.set src v := rfl
@[simp] theorem State.setAct_ovr (s : State) (src : Source) (v : Bool) : (s.setAct src v).ovr = s.ovr := rfl
@[simp] theorem State.setAct_ts (s : State) (src : Source) (v : Bool) : (s.setAct src v).ts = s.ts := rfl
@[simp] theorem State.setAct_tw (s : State) (src : Source) (v : Bool) : (s.setAct src v).tw = s.tw := rfl
@[simp] theorem State.setAct_fb (s : State) (src : Source) (v : Bool) : (s.setAct src v).fb = s.fb := rfl
@[simp] theorem State.setAct_lcdTrace (s : State) (src : Source) (v : Bool) : (s.setAct src v).lcdTrace = s.lcdTrace := rfl
@[simp] theorem State.setAct_dutyTrace (s : State) (src : Source) (v : Bool) : (s.setAct src v).dutyTrace = s.dutyTrace := rfl
@[simp] theorem State.setAct_agenda (s : State) (src : Source) (v : Bool) : (s.setAct src v).agenda = s.agenda := rfl
@[simp] theorem State.setAct_draws (s : State) (src : Source) (v : Bool) : (s.setAct src v).draws = s.draws := rfl

/-! ### `setOvr` -/

@[simp] theorem State.setOvr_cfg (s : State) (src : Source) (v : Bool) : (s.setOvr src v).cfg = s.cfg := rfl
@[simp] theorem State.setOvr_adc (s : State) (src : Source) (v : Bool) : (s.setOvr src v).adc = s.adc := rfl
@[simp] theorem State.setOvr_rstActive (s : State) (src : Source) (v : Bool) : (s.setOvr src v).rstActive = s.rstActive := rfl
@[simp] theorem State.setOvr_duty (s : State) (src : Source) (v : Bool) : (s.setOvr src v).duty = s.duty := rfl
@[simp] theorem State.setOvr_cmdSpeed (s : State) (src : Source) (v : Bool) : (s.setOvr src v).cmdSpeed = s.cmdSpeed := rfl
@[simp] theorem State.setOvr_measSpeed (s : State) (src : Source) (v : Bool) : (s.setOvr src v).measSpeed = s.measSpeed := rfl
@[simp] theorem State.setOvr_pulseCnt (s : State) (src : Source) (v : Bool) : (s.setOvr src v).pulseCnt = s.pulseCnt := rfl
@[simp] theorem State.setOvr_tAdc (s : State) (src : Source) (v : Bool) : (s.setOvr src v).tAdc = s.tAdc := rfl
@[simp] theorem State.setOvr_tPulses (s : State) (src : Source) (v : Bool) : (s.setOvr src v).tPulses = s.tPulses := rfl
@[simp] theorem State.setOvr_tSel (s : State) (src : Source) (v : Bool) : (s.setOvr src v).tSel = s.tSel := rfl
@[simp] theorem State.setOvr_tByte (s : State) (src : Source) (v : Bool) : (s.setOvr src v).tByte = s.tByte := rfl
@[simp] theorem State.setOvr_hpc (s : State) (src : Source) (v : Bool) : (s.setOvr src v).hpc = s.hpc := rfl
@[simp] theorem State.setOvr_initMs (s : State) (src : Source) (v : Bool) : (s.setOvr src v).initMs = s.initMs := rfl
@[simp] theorem State.setOvr_initDone (s : State) (src : Source) (v : Bool) : (s.setOvr src v).initDone = s.initDone := rfl
@[simp] theorem State.setOvr_cursor (s : State) (src : Source) (v : Bool) : (s.setOvr src v).cursor = s.cursor := rfl
@[simp] theorem State.setOvr_sampleCnt (s : State) (src : Source) (v : Bool) : (s.setOvr src v).sampleCnt = s.sampleCnt := rfl
@[simp] theorem State.setOvr_ien (s : State) (src : Source) (v : Bool) : (s.setOvr src v).ien = s.ien := rfl
@[simp] theorem State.setOvr_ienSave (s : State) (src : Source) (v : Bool) : (s.setOvr src v).ienSave = s.ienSave := rfl
@[simp] theorem State.setOvr_pend (s : State) (src : Source) (v : Bool) : (s.setOvr src v).pend = s.pend := rfl
@[simp] theorem State.setOvr_act (s : State) (src : Source) (v : Bool) : (s.setOvr src v).act = s.act := rfl
@[simp] theorem State.setOvr_ovr (s : State) (src : Source) (v : Bool) : (s.setOvr src v).ovr = s.ovr.set src v := rfl
@[simp] theorem State.setOvr_ts (s : State) (src : Source) (v : Bool) : (s.setOvr src v).ts = s.ts := rfl
@[simp] theorem State.setOvr_tw (s : State) (src : Source) (v : Bool) : (s.setOvr src v).tw = s.tw := rfl
@[simp] theorem State.setOvr_fb (s : State) (src : Source) (v : Bool) : (s.setOvr src v).fb = s.fb := rfl
@[simp] theorem State.setOvr_lcdTrace (s : State) (src : Source) (v : Bool) : (s.setOvr src v).lcdTrace = s.lcdTrace := rfl
@[simp] theorem State.setOvr_dutyTrace (s : State) (src : Source) (v : Bool) : (s.setOvr src v).dutyTrace = s.dutyTrace := rfl
@[simp] theorem State.setOvr_agenda (s : State) (src : Source) (v : Bool) : (s.setOvr src v).agenda = s.agenda := rfl
@[simp] theorem State.setOvr_draws (s : State) (src : Source) (v : Bool) : (s.setOvr src v).draws = s.draws := rfl

/-! ### `releaseReset` -/

@[simp] theorem releaseReset_cfg (s : State) : (releaseReset s).cfg = s.cfg := rfl
@[simp] theorem releaseReset_adc (s : State) : (releaseReset s).adc = s.adc := rfl
@[simp] theorem releaseReset_rstActive (s : State) : (releaseReset s).rstActive = false := rfl
@[simp] theorem releaseReset_duty (s : State) : (releaseReset s).duty = s.duty := rfl
@[simp] theorem releaseReset_cmdSpeed (s : State) : (releaseReset s).cmdSpeed = s.cmdSpeed := rfl
@[simp] theorem releaseReset_measSpeed (s : State) : (releaseReset s).measSpeed = s.measSpeed := rfl
@[simp] theorem releaseReset_pulseCnt (s : State) : (releaseReset s).pulseCnt = s.pulseCnt := rfl
@[simp] theorem releaseReset_tAdc (s : State) : (releaseReset s).tAdc = s.tAdc := rfl
@[simp] theorem releaseReset_tPulses (s : State) : (releaseReset s).tPulses = s.tPulses := rfl
@[simp] theorem releaseReset_tSel (s : State) : (releaseReset s).tSel = s.tSel := rfl
@[simp] theorem releaseReset_tByte (s : State) : (releaseReset s).tByte = s.tByte := rfl
@[simp] theorem releaseReset_hpc (s : State) : (releaseReset s).hpc = s.hpc := rfl
@[simp] theorem releaseReset_initMs (s : State) : (releaseReset s).initMs = s.initMs := rfl
@[simp] theorem releaseReset_initDone (s : State) : (releaseReset s).initDone = s.initDone := rfl
@[simp] theorem releaseReset_cursor (s : State) : (releaseReset s).cursor = s.cursor := rfl
@[simp] theorem releaseReset_sampleCnt (s : State) : (releaseReset s).sampleCnt = s.sampleCnt := rfl
@[simp] theorem releaseReset_ien (s : State) : (releaseReset s).ien = s.ien := rfl
@[simp] theorem releaseReset_ienSave (s : State) : (releaseReset s).ienSave = s.ienSave := rfl
@[simp] theorem releaseReset_pend (s : State) : (releaseReset s).pend = s.pend := rfl
@[simp] theorem releaseReset_act (s : State) : (releaseReset s).act = s.act := rfl
@[simp] theorem releaseReset_ovr (s : State) : (releaseReset s).ovr = s.ovr := rfl
@[simp] theorem releaseReset_ts (s : State) : (releaseReset s).ts = s.ts := rfl
@[simp] theorem releaseReset_tw (s : State) : (releaseReset s).tw = s.tw := rfl
@[simp] theorem releaseReset_fb (s : State) : (releaseReset s).fb = s.fb := rfl
@[simp] theorem releaseReset_lcdTrace (s : State) : (releaseReset s).lcdTrace = s.lcdTrace := rfl
@[simp] theorem releaseReset_dutyTrace (s : State) : (releaseReset s).dutyTrace = s.dutyTrace := rfl
@[simp] theorem releaseReset_agenda (s : State) : (releaseReset s).agenda = s.agenda := rfl
@[simp] theorem releaseReset_draws (s : State) : (releaseReset s).draws = s.draws := rfl

/-! ### `clearRegisters` and `drawUnspecified` -/

@[simp] theorem clearRegisters_cfg (s : State) : (clearRegisters s).cfg = s.cfg := rfl
@[simp] theorem clearRegisters_adc (s : State) : (clearRegisters s).adc = s.adc := rfl
@[simp] theorem clearRegisters_rstActive (s : State) : (clearRegisters s).rstActive = true := rfl
@[simp] theorem clearRegisters_duty (s : State) : (clearRegisters s).duty = s.cfg.dutyReset := rfl
@[simp] theorem clearRegisters_cmdSpeed (s : State) : (clearRegisters s).cmdSpeed = s.cmdSpeed := rfl
@[simp] theorem clearRegisters_measSpeed (s : State) : (clearRegisters s).measSpeed = s.measSpeed := rfl
@[simp] theorem clearRegisters_pulseCnt (s : State) : (clearRegisters s).pulseCnt = 0 := rfl
@[simp] theorem clearRegisters_tAdc (s : State) : (clearRegisters s).tAdc = s.tAdc := rfl
@[simp] theorem clearRegisters_tPulses (s : State) : (clearRegisters s).tPulses = s.tPulses := rfl
@[simp] theorem clearRegisters_tSel (s : State) : (clearRegisters s).tSel = s.tSel := rfl
@[simp] theorem clearRegisters_tByte (s : State) : (clearRegisters s).tByte = s.tByte := rfl
@[simp] theorem clearRegisters_hpc (s : State) : (clearRegisters s).hpc = ⟨0, 0, 0, 0⟩ := rfl
@[simp] theorem clearRegisters_initMs (s : State) : (clearRegisters s).initMs = 0 := rfl
@[simp] theorem clearRegisters_initDone (s : State) : (clearRegisters s).initDone = false := rfl
@[simp] theorem clearRegisters_cursor (s : State) : (clearRegisters s).cursor = 0 := rfl
@[simp] theorem clearRegisters_sampleCnt (s : State) : (clearRegisters s).sampleCnt = 0 := rfl
@[simp] theorem clearRegisters_ien (s : State) : (clearRegisters s).ien = false := rfl
@[simp] theorem clearRegisters_ienSave (s : State) : (clearRegisters s).ienSave = false := rfl
@[simp] theorem clearRegisters_pend (s : State) : (clearRegisters s).pend = ⟨false, false, false⟩ := rfl
@[simp] theorem clearRegisters_act (s : State) : (clearRegisters s).act = ⟨false, false, false⟩ := rfl
@[simp] theorem clearRegisters_ovr (s : State) : (clearRegisters s).ovr = ⟨false, false, false⟩ := rfl
@[simp] theorem clearRegisters_ts (s : State) : (clearRegisters s).ts = .idle := rfl
@[simp] theorem clearRegisters_tw (s : State) : (clearRegisters s).tw = 0 := rfl
@[simp] theorem clearRegisters_fb (s : State) : (clearRegisters s).fb = [] := rfl
@[simp] theorem clearRegisters_lcdTrace (s : State) : (clearRegisters s).lcdTrace = [] := rfl
@[simp] theorem clearRegisters_dutyTrace (s : State) : (clearRegisters s).dutyTrace = [] := rfl
@[simp] theorem clearRegisters_agenda (s : State) : (clearRegisters s).agenda = s.agenda := rfl
@[simp] theorem clearRegisters_draws (s : State) : (clearRegisters s).draws = s.draws := rfl
@[simp] theorem drawUnspecified_cfg (s : State) : (drawUnspecified s).cfg = s.cfg := rfl
@[simp] theorem drawUnspecified_adc (s : State) : (drawUnspecified s).adc = s.adc := rfl
@[simp] theorem drawUnspecified_rstActive (s : State) : (drawUnspecified s).rstActive = s.rstActive := rfl
@[simp] theorem drawUnspecified_duty (s : State) : (drawUnspecified s).duty = s.duty := rfl
@[simp] theorem drawUnspecified_pulseCnt (s : State) : (drawUnspecified s).pulseCnt = s.pulseCnt := rfl
@[simp] theorem drawUnspecified_hpc (s : State) : (drawUnspecified s).hpc = s.hpc := rfl
@[simp] theorem drawUnspecified_initMs (s : State) : (drawUnspecified s).initMs = s.initMs := rfl
@[simp] theorem drawUnspecified_initDone (s : State) : (drawUnspecified s).initDone = s.initDone := rfl
@[simp] theorem drawUnspecified_cursor (s : State) : (drawUnspecified s).cursor = s.cursor := rfl
@[simp] theorem drawUnspecified_sampleCnt (s : State) : (drawUnspecified s).sampleCnt = s.sampleCnt := rfl
@[simp] theorem drawUnspecified_ien (s : State) : (drawUnspecified s).ien = s.ien := rfl
@[simp] theorem drawUnspecified_ienSave (s : State) : (drawUnspecified s).ienSave = s.ienSave := rfl
@[simp] theorem drawUnspecified_pend (s : State) : (drawUnspecified s).pend = s.pend := rfl
@[simp] theorem drawUnspecified_act (s : State) : (drawUnspecified s).act = s.act := rfl
@[simp] theorem drawUnspecified_ovr (s : State) : (drawUnspecified s).ovr = s.ovr := rfl
@[simp] theorem drawUnspecified_ts (s : State) : (drawUnspecified s).ts = s.ts := rfl
@[simp] theorem drawUnspecified_tw (s : State) : (drawUnspecified s).tw = s.tw := rfl
@[simp] theorem drawUnspecified_fb (s : State) : (drawUnspecified s).fb = s.fb := rfl
@[simp] theorem drawUnspecified_lcdTrace (s : State) : (drawUnspecified s).lcdTrace = s.lcdTrace := rfl
@[simp] theorem drawUnspecified_dutyTrace (s : State) : (drawUnspecified s).dutyTrace = s.dutyTrace := rfl
@[simp] theorem drawUnspecified_agenda (s : State) : (drawUnspecified s).agenda = s.agenda := rfl
@[simp] theorem drawUnspecified_draws (s : State) : (drawUnspecified s).draws = s.draws + 6 := rfl

/-! ### Register files -/

@[simp] theorem SourceBits.get_set_same (b : SourceBits) (s : Source) (v : Bool) : (b.set s v).get s = v := by
  cases s <;> rfl

theorem SourceBits.get_set_other (b : SourceBits) {s t : Source} (h : t ≠ s) (v : Bool) :
    (b.set s v).get t = b.get t := by
  cases s <;> cases t <;> first | rfl | exact absurd rfl h

theorem SourceBits.ext_get {a b : SourceBits} (h : ∀ s, a.get s = b.get s) : a = b := by
  cases a; cases b
  have h1 := h .ctrl
  have h2 := h .med
  have h3 := h .fast
  simp_all [SourceBits.get]

@[simp] theorem Steps.get_set_same (h : Steps) (c : Context) (n : BitVec 6) : (h.set c n).get c = n := by
  cases c <;> rfl

theorem Steps.get_set_other (h : Steps) {c d : Context} (hd : d ≠ c) (n : BitVec 6) :
    (h.set c n).get d = h.get d := by
  cases c <;> cases d <;> first | rfl | exact absurd rfl hd

@[simp] theorem Steps.set_bg (h : Steps) (n : BitVec 6) : h.set .bg n = { h with bg := n } := rfl
@[simp] theorem Steps.set_ctrl (h : Steps) (n : BitVec 6) : h.set .ctrl n = { h with ctrl := n } := rfl
@[simp] theorem Steps.set_med (h : Steps) (n : BitVec 6) : h.set .med n = { h with med := n } := rfl
@[simp] theorem Steps.set_fast (h : Steps) (n : BitVec 6) : h.set .fast n = { h with fast := n } := rfl
@[simp] theorem SourceBits.set_ctrl (b : SourceBits) (v : Bool) : b.set .ctrl v = { b with ctrl := v } := rfl
@[simp] theorem SourceBits.set_med (b : SourceBits) (v : Bool) : b.set .med v = { b with med := v } := rfl
@[simp] theorem SourceBits.set_fast (b : SourceBits) (v : Bool) : b.set .fast v = { b with fast := v } := rfl

end Sys2Proof.Machine
end

