-- ==== Sys2Proof/Laws/Ops.lean ====
section
/-! SUPPORT. For each shared operation, one lemma that says all it can do. -/

namespace Sys2Proof.Machine

@[simp] theorem andThen_next_iff {r : Result} {k : State → Result} {t : State} :
    andThen r k = .next t ↔ ∃ s, r = .next s ∧ k s = .next t := by
  cases r <;> simp [andThen]

@[simp] theorem andThen_next (s : State) (k : State → Result) : andThen (.next s) k = k s := rfl

/-- `issue` needs an idle transport, and then sets the word and the phase. -/
theorem issue_next {rs : Bool} {b : Byte} {s t : State} (h : issue rs b s = .next t) :
    s.ts = .idle ∧ t = { s with tw := BitVec.ofBool rs ++ 0#1 ++ b, ts := .setup } := by
  unfold issue at h
  split at h
  · next hs => exact ⟨hs, by injection h with h; exact h.symm⟩
  · cases h

theorem issue_idle {s : State} (rs : Bool) (b : Byte) (h : s.ts = .idle) :
    issue rs b s = .next { s with tw := BitVec.ofBool rs ++ 0#1 ++ b, ts := .setup } := if_pos h

/-- What the multiplexer issues when it answers a next state. -/
theorem issueSelected_next {sel : MuxSelect} {s t : State} (h : issueSelected sel s = .next t) :
    ∃ rs b, muxOutput sel s = some (rs, b) ∧ s.ts = .idle ∧
      t = { s with tw := BitVec.ofBool rs ++ 0#1 ++ b, ts := .setup } := by
  unfold issueSelected at h
  split at h
  · next rs b hm => exact ⟨rs, b, hm, issue_next h⟩
  · cases h

/-- A wait operation happens when the transport is idle, and otherwise changes nothing. -/
theorem whenIdle_next {s t : State} {k : Result} (h : whenIdle s k = .next t) :
    (s.ts = .idle ∧ k = .next t) ∨ (s.ts ≠ .idle ∧ t = s) := by
  unfold whenIdle at h
  split at h
  · next hs => exact .inl ⟨hs, h⟩
  · next hs => exact .inr ⟨hs, by injection h with h; exact h.symm⟩

/-- Completing a transfer ends a settling one, and otherwise changes nothing. -/
theorem completeTransfer_cases (s : State) :
    (s.ts = .settle ∧ completeTransfer s = { s with ts := .idle }) ∨ (s.ts ≠ .settle ∧ completeTransfer s = s) := by
  unfold completeTransfer
  split
  · next h => exact .inl ⟨h, rfl⟩
  · next h => exact .inr ⟨h, rfl⟩

/-- Starting the background enables interrupts once, and otherwise changes nothing. -/
theorem startBackground_cases (s : State) :
    (s.hpc.bg = 0 ∧ startBackground s = { s with ien := true, hpc := { s.hpc with bg := 1 } }) ∨
    (s.hpc.bg ≠ 0 ∧ startBackground s = s) := by
  unfold startBackground
  split
  · next h => exact .inl ⟨h, rfl⟩
  · next h => exact .inr ⟨h, rfl⟩

/-- All that entering a handler does. -/
theorem enterHandler_eq (src : Source) (s : State) :
    enterHandler src s =
      { s with
        pend := s.pend.set src false
        act := s.act.set src true
        hpc := s.hpc.set src.context 0 } := rfl

/-- All that returning from a handler does. -/
theorem leaveHandler_eq (src : Source) (s : State) :
    leaveHandler src s = { s with act := s.act.set src false } := rfl

/-- All that a tick does. -/
theorem latchTick_eq (src : Source) (s : State) :
    latchTick src s =
      { s with ovr := s.ovr.set src (s.pend.get src || s.ovr.get src), pend := s.pend.set src true } := rfl

/-- A draw changes only the count of draws. -/
theorem draw_snd (n : Nat) (s : State) : (draw n s).2 = { s with draws := s.draws + 1 } := rfl

/-- A frame cell is computed without changing anything but, at most, the count of draws. -/
theorem formatCell_snd (i : Fin 32) (s : State) :
    (formatCell i s).2 = s ∨ (formatCell i s).2 = { s with draws := s.draws + 1 } := by
  unfold formatCell measuredCell draw
  split
  · exact .inl rfl
  · split
    · exact .inl rfl
    · split
      · exact .inl rfl
      · exact .inr rfl

/-- A clamped value lies between the ends. -/
theorem clamp_mem {x lo hi : Nat} (h : lo ≤ hi) : lo ≤ clamp x lo hi ∧ clamp x lo hi ≤ hi := by
  unfold clamp
  split
  · exact ⟨Nat.le_refl _, h⟩
  · split <;> omega

/-- The rule's quotient is Lean's truncated division. -/
theorem tdiv_eq (a : Int) (b : Nat) : tdiv a b = Int.tdiv a b := by
  unfold tdiv fdiv
  split
  · next h =>
    obtain ⟨n, rfl⟩ := Int.eq_ofNat_of_zero_le h
    simp [Int.tdiv]
  · next h =>
    obtain ⟨n, hn⟩ := Int.eq_ofNat_of_zero_le (show 0 ≤ -a by omega)
    obtain rfl : a = -(n : Int) := by omega
    rw [Int.neg_tdiv, neg_neg, Int.toNat_natCast, Int.ofNat_tdiv]

/-- An entry the lookup finds is an entry of that tick count. -/
theorem scheduleMatch_some {p : Params} {ms : BitVec 16} {i : Fin 8} (h : scheduleMatch p ms = some i) :
    p.schedT[i] = ms := by
  simpa using List.find?_some h

/-- Where the lookup finds nothing there is no entry. -/
theorem scheduleMatch_none {p : Params} {ms : BitVec 16} (h : scheduleMatch p ms = none) (i : Fin 8) :
    p.schedT[i] ≠ ms := by
  have hi : i ∈ scheduleIndices := by revert i; decide
  simpa using List.find?_eq_none.mp h i hi

end Sys2Proof.Machine
end

