-- ==== Sys2Proof/Laws/PerInstr.lean ====
section
/-! SUPPORT. The statements made once per operation: an operation's code depends on the parameters only through the
command byte it carries (30_encoding.md rule R91). -/

namespace Sys2Proof.Laws.EncodeFixedByCommandByte

/-- Two records that give the operation the same command byte give it the same code. -/
def Statement (i : Instr) : Prop :=
  ∀ p q : Params, i.commandByte p = i.commandByte q → encode p i = encode q i

theorem evTickF : Statement .evTickF := fun _ _ _ => rfl
theorem evTickM : Statement .evTickM := fun _ _ _ => rfl
theorem evTickC : Statement .evTickC := fun _ _ _ => rfl
theorem evPulse : Statement .evPulse := fun _ _ _ => rfl
theorem evReady : Statement .evReady := fun _ _ _ => rfl
theorem evStart : Statement .evStart := fun _ _ _ => rfl
theorem evRst : Statement .evRst := fun _ _ _ => rfl
theorem dispatchFast : Statement .dispatchFast := fun _ _ _ => rfl
theorem dispatchMed : Statement .dispatchMed := fun _ _ _ => rfl
theorem dispatchCtrl : Statement .dispatchCtrl := fun _ _ _ => rfl
theorem bgStart : Statement .bgStart := fun _ _ _ => rfl
theorem bgIdle : Statement .bgIdle := fun _ _ _ => rfl
theorem ctlDiv : Statement .ctlDiv := fun _ _ _ => rfl
theorem ctlTarget : Statement .ctlTarget := fun _ _ _ => rfl
theorem csEnter : Statement .csEnter := fun _ _ _ => rfl
theorem ctlPulses : Statement .ctlPulses := fun _ _ _ => rfl
theorem csExit : Statement .csExit := fun _ _ _ => rfl
theorem ctlMeasure : Statement .ctlMeasure := fun _ _ _ => rfl
theorem ctlFmt (i : BitVec 5) : Statement (.ctlFmt i) := fun _ _ _ => rfl
theorem ctlDuty : Statement .ctlDuty := fun _ _ _ => rfl
theorem retCtrl : Statement .retCtrl := fun _ _ _ => rfl
theorem rfrSel : Statement .rfrSel := fun _ _ _ => rfl
theorem rfrHome : Statement .rfrHome := fun _ _ _ => rfl
theorem rfrHomew : Statement .rfrHomew := fun _ _ _ => rfl
theorem rfrLine2 : Statement .rfrLine2 := fun _ _ _ => rfl
theorem rfrLine2w : Statement .rfrLine2w := fun _ _ _ => rfl
theorem rfrChar : Statement .rfrChar := fun _ _ _ => rfl
theorem rfrCharw : Statement .rfrCharw := fun _ _ _ => rfl
theorem retMed : Statement .retMed := fun _ _ _ => rfl
theorem iniTick : Statement .iniTick := fun _ _ _ => rfl
theorem iniCmd : Statement .iniCmd := fun _ _ _ => rfl
theorem iniCmdw : Statement .iniCmdw := fun _ _ _ => rfl
theorem retFast : Statement .retFast := fun _ _ _ => rfl
theorem trnEhi : Statement .trnEhi := fun _ _ _ => rfl
theorem trnElo : Statement .trnElo := fun _ _ _ => rfl
theorem trnDone : Statement .trnDone := fun _ _ _ => rfl
theorem lcdFuncset : Statement .lcdFuncset := fun _ _ h => congrArg (fun b => Code.tw (0b00#2 ++ b)) (Option.some.inj h)
theorem lcdDispoff : Statement .lcdDispoff := fun _ _ h => congrArg (fun b => Code.tw (0b00#2 ++ b)) (Option.some.inj h)
theorem lcdClear : Statement .lcdClear := fun _ _ h => congrArg (fun b => Code.tw (0b00#2 ++ b)) (Option.some.inj h)
theorem lcdEntrymode : Statement .lcdEntrymode := fun _ _ h => congrArg (fun b => Code.tw (0b00#2 ++ b)) (Option.some.inj h)
theorem lcdDispon : Statement .lcdDispon := fun _ _ h => congrArg (fun b => Code.tw (0b00#2 ++ b)) (Option.some.inj h)
theorem lcdLine2 : Statement .lcdLine2 := fun _ _ h => congrArg (fun b => Code.tw (0b00#2 ++ b)) (Option.some.inj h)
theorem lcdHome : Statement .lcdHome := fun _ _ h => congrArg (fun b => Code.tw (0b00#2 ++ b)) (Option.some.inj h)
theorem lcdData (d : Byte) : Statement (.lcdData d) := fun _ _ _ => rfl

end Sys2Proof.Laws.EncodeFixedByCommandByte
end

