-- ==== Sys2Proof/Laws/Step.lean ====
section
/-! SUPPORT. What a step can do, said once: each turn either changes nothing or is `exec` of the operation its agent
decodes. -/

namespace Sys2Proof.Machine

theorem step_of_valid {s : State} (h : s.cfg.valid = true) : step s = takeTurn s := if_pos h

theorem step_next_valid {s t : State} (h : step s = .next t) : s.cfg.valid = true := by
  unfold step at h
  split at h
  · assumption
  · cases h

theorem step_next {s t : State} (h : step s = .next t) : takeTurn s = .next t := by
  rw [← step_of_valid (step_next_valid h), h]

/-- Performing an operation is `exec` of it, or waiting. -/
theorem perform_next {i : Instr} {s t : State} (h : perform i s = .next t) :
    (enabled i s = true ∧ exec i s = .next t) ∨ (enabled i s = false ∧ t = s) := by
  unfold perform at h
  split at h
  · next he => exact .inl ⟨he, h⟩
  · next he => exact .inr ⟨by simpa using he, by injection h with h; exact h.symm⟩

/-- The machine's turn waits, or is `exec` of the operation it fetches. -/
theorem machineTurn_next {s t : State} (h : machineTurn s = .next t) :
    t = s ∨ ∃ i, s.rstActive = false ∧ fetchMachine s = .ok i ∧ enabled i s = true ∧ exec i s = .next t := by
  unfold machineTurn at h
  split at h
  · left; injection h with h; exact h.symm
  · next hr =>
    split at h
    · next i hi =>
      rcases perform_next h with ⟨he, hx⟩ | ⟨-, rfl⟩
      · exact .inr ⟨i, by simpa using hr, hi, he, hx⟩
      · exact .inl rfl
    · cases h

/-- The transport's turn waits, or is `exec` of the phase it decodes. -/
theorem transportTurn_next {s t : State} (h : transportTurn s = .next t) :
    t = s ∨ ∃ i, s.rstActive = false ∧ fetchTransport s = .ok i ∧ enabled i s = true ∧ exec i s = .next t := by
  unfold transportTurn at h
  split at h
  · left; injection h with h; exact h.symm
  · next hr =>
    split at h
    · next i hi =>
      rcases perform_next h with ⟨he, hx⟩ | ⟨-, rfl⟩
      · exact .inr ⟨i, by simpa using hr, hi, he, hx⟩
      · exact .inl rfl
    · left; injection h with h; exact h.symm

/-- Running on its own, the block takes a machine step or a transport phase, or nothing changes. -/
theorem autoTurn_next {s t : State} (h : autoTurn s = .next t) :
    t = s ∨ machineTurn s = .next t ∨ transportTurn s = .next t := by
  unfold autoTurn at h
  split at h
  · exact .inr (.inl h)
  · split at h
    · exact .inr (.inr h)
    · left; injection h with h; exact h.symm

/-- An operation of the block's own agents: fetched by the machine or by the transport, and enabled. -/
def OwnOperation (i : Instr) (s : State) : Prop :=
  s.rstActive = false ∧ (fetchMachine s = .ok i ∨ fetchTransport s = .ok i) ∧ enabled i s = true

/-- All that a step can do: an event vector, a new `adc` level, an operation of the block, or nothing but the turn
passing. -/
theorem step_cases {s t : State} (h : step s = .next t) :
    (∃ w rest, s.agenda = .event w :: rest ∧ eventTurn w { s with agenda := rest } = .next t) ∨
    (∃ a rest, s.agenda = .adc a :: rest ∧ t = { s with adc := a, agenda := rest }) ∨
    (∃ i rest, OwnOperation i { s with agenda := rest } ∧ exec i { s with agenda := rest } = .next t) ∨
    (∃ rest, t = { s with agenda := rest }) := by
  have own : ∀ {u : State} (rest : List Turn), u = { s with agenda := rest } →
      (t = u ∨ machineTurn u = .next t ∨ transportTurn u = .next t) →
      (∃ i rest, OwnOperation i { s with agenda := rest } ∧ exec i { s with agenda := rest } = .next t) ∨
      (∃ rest, t = { s with agenda := rest }) := by
    rintro u rest rfl (rfl | hm | hm)
    · exact .inr ⟨rest, rfl⟩
    · rcases machineTurn_next hm with rfl | ⟨i, hr, hf, he, hx⟩
      · exact .inr ⟨rest, rfl⟩
      · exact .inl ⟨i, rest, ⟨hr, .inl hf, he⟩, hx⟩
    · rcases transportTurn_next hm with rfl | ⟨i, hr, hf, he, hx⟩
      · exact .inr ⟨rest, rfl⟩
      · exact .inl ⟨i, rest, ⟨hr, .inr hf, he⟩, hx⟩
  have h' := step_next h
  unfold takeTurn at h'
  split at h'
  · next ha => exact .inr (.inr (own [] (by cases s; simp_all) (autoTurn_next h')))
  · next w rest ha => exact .inl ⟨w, rest, ha, h'⟩
  · next a rest ha => exact .inr (.inl ⟨a, rest, ha, by injection h' with h'; exact h'.symm⟩)
  · next rest ha => exact .inr (.inr (own rest rfl (.inr (.inl h'))))
  · next rest ha => exact .inr (.inr (own rest rfl (.inr (.inr h'))))
  · next rest ha =>
    split at h'
    · exact .inr (.inr (.inr ⟨rest, by injection h' with h'; exact h'.symm⟩))
    · exact .inr (.inr (own (.run :: rest) (by cases s; simp_all) (autoTurn_next h')))

end Sys2Proof.Machine
end

