-- ==== Sys2Proof/Laws/Runs.lean ====
section
/-! SUPPORT. Sequences of operations and of steps taken apart, and the blocks at rest. -/

namespace Sys2Proof.Machine

/-- Two sequences of operations, one after the other. -/
theorem execAll_append (l m : List Instr) (s : State) :
    execAll (l ++ m) s = andThen (execAll l s) (execAll m) := by
  induction l generalizing s with
  | nil => rfl
  | cons i l ih =>
    simp only [List.cons_append, execAll]
    cases exec i s with
    | next t => exact ih t
    | fault f => rfl
    | refused f => rfl

/-- A sequence follows the machine if its first part does, and its second does wherever the first part ends. -/
theorem follows_append (l m : List Instr) (s : State) :
    Follows (l ++ m) s ↔ Follows l s ∧ ∀ t, execAll l s = .next t → Follows m t := by
  induction l generalizing s with
  | nil => simp [Follows, execAll]
  | cons i l ih =>
    simp only [List.cons_append, Follows, execAll, andThen_next_iff]
    constructor
    · rintro ⟨hi, h⟩
      exact ⟨⟨hi, fun t ht => ((ih t).mp (h t ht)).1⟩, fun t ⟨u, hu, hl⟩ => ((ih u).mp (h u hu)).2 t hl⟩
    · rintro ⟨⟨hi, h⟩, hm⟩
      exact ⟨hi, fun t ht => (ih t).mpr ⟨h t ht, fun u hu => hm u ⟨t, ht, hu⟩⟩⟩

/-- More steps are some steps and then the others. -/
theorem run_add (M : Host.Core) (k n : Nat) (s t : M.State) (h : Host.Core.run M k s = .next t) :
    Host.Core.run M (k + n) s = Host.Core.run M n t := by
  induction k generalizing s with
  | zero =>
    cases h
    rw [Nat.zero_add]
  | succ k ih =>
    rw [Nat.add_right_comm]
    simp only [Host.Core.run] at h ⊢
    split at h
    · next u hu => exact ih u h
    · cases h
    · cases h

/-- At rest, the machine and the transport each have nothing to do. -/
theorem atRest_iff (s : State) : atRest s = true ↔ machineReady s = false ∧ transportReady s = false := by
  simp [atRest]

/-- Quiescent is at rest with an idle transport (10_state.md rule R43). -/
theorem quiescent_iff (s : State) : quiescent s = true ↔ atRest s = true ∧ s.ts = .idle := by
  simp [quiescent]

/-- Rest does not depend on the turns to come. -/
@[simp] theorem atRest_agenda (s : State) (l : List Turn) : atRest { s with agenda := l } = atRest s := rfl

/-- Quiescence does not depend on the turns to come. -/
@[simp] theorem quiescent_agenda (s : State) (l : List Turn) : quiescent { s with agenda := l } = quiescent s := rfl

end Sys2Proof.Machine
end

