-- ==== Sys2Proof/Tests/Slice0.lean ====
section
/-! SUPPORT. The model's own tests: well-formedness, decoding of words written out from the spec's tables, one step on
small states with results taken from 95_test_vectors.md, and a witness for the hypotheses of every statement. -/

namespace Sys2Proof.Tests

open Sys2Proof.Machine

/-- What an outcome shows of its next state. -/
def seen {α : Type} (r : Result) (f : State → α) : Option α :=
  match r with
  | .next t => some (f t)
  | .fault _ => none
  | .refused _ => none

/-- A started machine: interrupts enabled, the background idle. -/
def started : State := { State.reset with ien := true, hpc := ⟨1, 0, 0, 0⟩ }

/-- The started machine after init is complete. -/
def complete : State := { started with initDone := true, initMs := 28 }

/-- The control handler at step `n`. -/
def inCtrl (n : BitVec 6) : State := { complete with act := ⟨true, false, false⟩, hpc := ⟨1, n, 0, 0⟩ }

/-- The refresh handler at step `n`. -/
def inMed (n : BitVec 6) : State := { complete with act := ⟨false, true, false⟩, hpc := ⟨1, 0, n, 0⟩ }

/-- The init handler at step `n`. -/
def inFast (n : BitVec 6) : State := { started with act := ⟨false, false, true⟩, hpc := ⟨1, 0, 0, n⟩ }

/-! ### Well-formedness: each check refuses an ill-formed term -/

theorem test_refEx_valid : Params.refEx.valid = true := by decide
theorem test_refuses_min_above_max : ({ Params.refEx with minRpm := 1001 } : Params).speedsOk = false := by decide
theorem test_refuses_max_zero : ({ Params.refEx with minRpm := 0, maxRpm := 0 } : Params).speedsOk = false := by decide
theorem test_refuses_max_10000 : ({ Params.refEx with maxRpm := 10000 } : Params).speedsOk = false := by decide
theorem test_refuses_kDiv_zero : ({ Params.refEx with kDiv := 0 } : Params).dividerOk = false := by decide
theorem test_refuses_kDiv_too_wide : ({ Params.refEx with kDiv := 65536 } : Params).dividerOk = false := by decide
theorem test_refuses_width_zero : ({ Params.refEx with sampleWidth := 0 } : Params).dividerOk = false := by decide
theorem test_refuses_width_33 : ({ Params.refEx with sampleWidth := 33 } : Params).dividerOk = false := by decide
theorem test_refuses_fullScale_zero : ({ Params.refEx with fullScale := 0 } : Params).scalesOk = false := by decide
theorem test_refuses_fullScale_65536 : ({ Params.refEx with fullScale := 65536 } : Params).scalesOk = false := by decide
theorem test_refuses_window_zero : ({ Params.refEx with windowConst := 0 } : Params).scalesOk = false := by decide
theorem test_refuses_window_65536 : ({ Params.refEx with windowConst := 65536 } : Params).scalesOk = false := by decide
theorem test_refuses_schedule_zero :
    ({ Params.refEx with schedT := #v[0, 21, 22, 23, 24, 25, 27, 28] } : Params).scheduleOk = false := by decide
theorem test_refuses_schedule_equal :
    ({ Params.refEx with schedT := #v[16, 21, 22, 23, 24, 25, 28, 28] } : Params).scheduleOk = false := by decide
theorem test_refuses_shared_command_byte :
    Instr.lcdHome.wf { Params.refEx with cmdHome := 0x38 } = false := by decide
theorem test_command_words_wf : commandWords.all (Instr.wf Params.refEx) = true := by decide

/-! ### Decoding: every constructor from a word written out from 30_encoding.md -/

theorem test_decode_events :
    decodeEv 0b0000001#7 = .ok .evTickF ∧ decodeEv 0b0000010#7 = .ok .evTickM ∧ decodeEv 0b0000100#7 = .ok .evTickC ∧
    decodeEv 0b0001000#7 = .ok .evPulse ∧ decodeEv 0b0010000#7 = .ok .evReady ∧ decodeEv 0b0100000#7 = .ok .evStart ∧
    decodeEv 0b1000000#7 = .ok .evRst ∧ decodeEv 0b1000111#7 = .ok .evRst := by decide
theorem test_decode_simultaneous : decodeEvents 0b0111111#7 =
    [.evStart, .evPulse, .evReady, .evTickF, .evTickM, .evTickC] := by decide
theorem test_decode_dispatch :
    decodeArb 0b1100000#7 = .ok .dispatchFast ∧ decodeArb 0b1111011#7 = .ok .dispatchFast ∧
    decodeArb 0b1010000#7 = .ok .dispatchMed ∧ decodeArb 0b1011001#7 = .ok .dispatchMed ∧
    decodeArb 0b1001000#7 = .ok .dispatchCtrl ∧ decodeArb 0b1001010#7 = .error .noDispatch ∧
    decodeArb 0b0111000#7 = .error .noDispatch := by decide
theorem test_decode_background :
    decodeSt 0b00000000#8 = .ok .bgStart ∧ decodeSt 0b00000001#8 = .ok .bgIdle ∧
    decodeSt 0b00000010#8 = .error .unreachableState := by decide
theorem test_decode_control :
    decodeSt 0b01000000#8 = .ok .ctlDiv ∧ decodeSt 0b01000001#8 = .ok .ctlTarget ∧
    decodeSt 0b01000010#8 = .ok .csEnter ∧ decodeSt 0b01000011#8 = .ok .ctlPulses ∧
    decodeSt 0b01000100#8 = .ok .csExit ∧ decodeSt 0b01000101#8 = .ok .ctlMeasure ∧
    decodeSt 0b01000110#8 = .ok .ctlDuty ∧ decodeSt 0b01000111#8 = .ok .retCtrl ∧
    decodeSt 0b01001000#8 = .error .unreachableState := by decide
theorem test_decode_format :
    decodeSt 0b01100000#8 = .ok (.ctlFmt 0) ∧ decodeSt 0b01101100#8 = .ok (.ctlFmt 12) ∧
    decodeSt 0b01111111#8 = .ok (.ctlFmt 31) := by decide
theorem test_decode_refresh :
    decodeSt 0b10000000#8 = .ok .rfrSel ∧ decodeSt 0b10000001#8 = .ok .rfrHome ∧
    decodeSt 0b10000010#8 = .ok .rfrHomew ∧ decodeSt 0b10000011#8 = .ok .rfrLine2 ∧
    decodeSt 0b10000100#8 = .ok .rfrLine2w ∧ decodeSt 0b10000101#8 = .ok .rfrChar ∧
    decodeSt 0b10000110#8 = .ok .rfrCharw ∧ decodeSt 0b10000111#8 = .ok .retMed ∧
    decodeSt 0b10001000#8 = .error .unreachableState := by decide
theorem test_decode_init :
    decodeSt 0b11000000#8 = .ok .iniTick ∧ decodeSt 0b11000001#8 = .ok .iniCmd ∧
    decodeSt 0b11000010#8 = .ok .iniCmdw ∧ decodeSt 0b11000011#8 = .ok .retFast ∧
    decodeSt 0b11000100#8 = .error .unreachableState := by decide
theorem test_decode_transport :
    decodeTp 0b01#2 = .ok .trnEhi ∧ decodeTp 0b10#2 = .ok .trnElo ∧ decodeTp 0b11#2 = .ok .trnDone ∧
    decodeTp 0b00#2 = .error .idlePhase := by decide
theorem test_decode_words :
    decodeTw Params.refEx 0b0000111000#10 = .ok .lcdFuncset ∧ decodeTw Params.refEx 0b0000001000#10 = .ok .lcdDispoff ∧
    decodeTw Params.refEx 0b0000000001#10 = .ok .lcdClear ∧ decodeTw Params.refEx 0b0000000110#10 = .ok .lcdEntrymode ∧
    decodeTw Params.refEx 0b0000001100#10 = .ok .lcdDispon ∧ decodeTw Params.refEx 0b0011000000#10 = .ok .lcdLine2 ∧
    decodeTw Params.refEx 0b0000000010#10 = .ok .lcdHome ∧
    decodeTw Params.refEx 0b1000110101#10 = .ok (.lcdData 0x35#8) ∧
    decodeTw Params.refEx 0b0111000000#10 = .error .readWord ∧
    decodeTw Params.refEx 0b0011111111#10 = .error .unknownCommand := by decide
theorem test_table_words :
    decodeTableWord 8 0x43 = some .ctlPulses ∧ decodeTableWord 8 0x20 = some .evStart ∧
    decodeTableWord 8 0x48 = some .dispatchCtrl ∧ decodeTableWord 8 0x03 = some .trnDone ∧
    decodeTableWord 16 0x235 = some (.lcdData 0x35#8) := by decide

/-! ### One operation each, results from 95_test_vectors.md section 2 -/

theorem test_tick_latched :
    seen (exec .evTickM started) (fun t => (t.pend.med, t.ovr.med)) = some (true, false) := by decide

theorem test_tick_overrun :
    seen (exec .evTickF { started with pend := ⟨false, false, true⟩ }) (fun t => (t.pend.fast, t.ovr.fast)) = some (true, true) := by decide

theorem test_tick_latched_while_disabled :
    seen (exec .evTickC State.reset) (fun t => (t.pend.ctrl, t.ovr.ctrl)) = some (true, false) := by decide

theorem test_pulse_wraps :
    seen (exec .evPulse { complete with pulseCnt := 65535 }) (fun t => t.pulseCnt) = some 0 := by decide

theorem test_pulse_before_handover :
    seen (exec .evPulse started) (fun t => t.pulseCnt) = some 0 := by decide

theorem test_ready_settle :
    seen (exec .evReady { complete with ts := .settle }) (fun t => t.ts) = some .idle := by decide

theorem test_ready_not_remembered :
    seen (exec .evReady { complete with ts := .ehi }) (fun t => t.ts) = some .ehi := by decide

theorem test_start :
    seen (exec .evStart State.reset) (fun t => (t.ien, t.hpc.bg)) = some (true, 1) := by decide

theorem test_start_again :
    seen (exec .evStart { started with ien := false }) (fun t => (t.ien, t.hpc.bg)) = some (false, 1) := by decide

theorem test_reset_in_control_execution :
    seen (exec .evRst { inCtrl 40 with sampleCnt := 500, duty := 1 }) (fun t => (t.act, t.hpc, t.ien, t.sampleCnt, t.duty)) = some (⟨false, false, false⟩, ⟨0, 0, 0, 0⟩, false, 0, 0x80) := by decide

theorem test_reset_frame_and_traces :
    seen (exec .evRst { inCtrl 40 with fb := [(12, 0x31)], dutyTrace := [1] }) (fun t => (memRead t 12, t.dutyTrace, t.rstActive)) = some (some 0x30, [], true) := by decide

theorem test_dispatch_fast :
    seen (exec .dispatchFast { inMed 5 with pend := ⟨true, false, true⟩ }) (fun t => (t.pend, t.act, t.hpc)) = some (⟨true, false, false⟩, ⟨false, true, true⟩, ⟨1, 0, 5, 0⟩) := by decide

theorem test_dispatch_med :
    seen (exec .dispatchMed { inCtrl 37 with pend := ⟨false, true, false⟩ }) (fun t => (t.pend, t.act, t.hpc)) = some (⟨false, false, false⟩, ⟨true, true, false⟩, ⟨1, 37, 0, 0⟩) := by decide

theorem test_dispatch_ctrl :
    seen (exec .dispatchCtrl { complete with pend := ⟨true, false, false⟩, hpc := ⟨1, 7, 7, 3⟩ }) (fun t => (t.pend.ctrl, t.act.ctrl, t.hpc.ctrl)) = some (false, true, 0) := by decide

theorem test_ret_fast :
    seen (exec .retFast { inFast 3 with act := ⟨true, true, true⟩ }) (fun t => (t.act, t.ien)) = some (⟨true, true, false⟩, true) := by decide

theorem test_ret_med :
    seen (exec .retMed { inMed 7 with act := ⟨true, true, false⟩ }) (fun t => t.act) = some ⟨true, false, false⟩ := by decide

theorem test_ret_ctrl :
    seen (exec .retCtrl (inCtrl 7)) (fun t => t.act) = some ⟨false, false, false⟩ := by decide

theorem test_bg_start :
    seen (exec .bgStart State.reset) (fun t => (t.ien, t.hpc.bg)) = some (true, 1) := by decide

theorem test_bg_idle :
    seen (exec .bgIdle started) (fun t => t) = some started := by decide

theorem test_cs_enter :
    seen (exec .csEnter (inCtrl 2)) (fun t => (t.ienSave, t.ien, t.hpc.ctrl)) = some (true, false, 3) := by decide

theorem test_cs_exit :
    seen (exec .csExit { inCtrl 4 with ien := false, ienSave := true }) (fun t => (t.ien, t.hpc.ctrl)) = some (true, 5) := by decide

theorem test_ctl_div_match :
    seen (exec .ctlDiv { inCtrl 0 with sampleCnt := 499 }) (fun t => (t.sampleCnt, t.hpc.ctrl)) = some (500, 1) := by decide

theorem test_ctl_div_wrap :
    seen (exec .ctlDiv { inCtrl 0 with sampleCnt := 65535 }) (fun t => (t.sampleCnt, t.hpc.ctrl)) = some (0, 7) := by decide

theorem test_ctl_target_rounds :
    seen (exec .ctlTarget { inCtrl 1 with adc := 1026 }) (fun t => (t.tAdc, t.cmdSpeed, t.hpc.ctrl)) = some (1026, 251, 2) := by decide

theorem test_ctl_target_half_up :
    seen (exec .ctlTarget { inCtrl 1 with adc := 1002, cfg := { Params.refEx with fullScale := 4000 } }) (fun t => t.cmdSpeed) = some 251 := by decide

theorem test_ctl_pulses :
    seen (exec .ctlPulses { inCtrl 3 with pulseCnt := 120 }) (fun t => (t.tPulses, t.pulseCnt, t.hpc.ctrl)) = some (120, 0, 4) := by decide

theorem test_ctl_measure_large :
    seen (exec .ctlMeasure { inCtrl 5 with tPulses := 65535 }) (fun t => (t.measSpeed, t.hpc.ctrl)) = some (327675, 32) := by decide

theorem test_ctl_measure_floor :
    seen (exec .ctlMeasure { inCtrl 5 with tPulses := 1, cfg := { Params.refEx with windowConst := 7 } }) (fun t => t.measSpeed) = some 8 := by decide

theorem test_ctl_fmt_digit :
    seen (exec (.ctlFmt 13) { inCtrl 45 with cmdSpeed := 250 }) (fun t => (memRead t 13, memRead t 12, t.hpc.ctrl)) = some (some 0x32, some 0x30, 46) := by decide

theorem test_ctl_fmt_last :
    seen (exec (.ctlFmt 31) { inCtrl 63 with measSpeed := 200 }) (fun t => (memRead t 31, t.hpc.ctrl)) = some (some 0x30, 6) := by decide

theorem test_ctl_duty_wraps_down :
    seen (exec .ctlDuty { inCtrl 6 with cmdSpeed := 600, measSpeed := 0, duty := 0 }) (fun t => (t.duty, t.dutyTrace, t.hpc.ctrl)) = some (0xFF, [0xFF], 7) := by decide

theorem test_ctl_duty_negative_quotient :
    seen (exec .ctlDuty { inCtrl 6 with cmdSpeed := 0, measSpeed := 1000, cfg := { Params.refEx with minRpm := 0 } }) (fun t => t.duty) = some 0x7F := by decide

theorem test_rfr_sel_before_init :
    seen (exec .rfrSel started) (fun t => t.hpc.med) = some 7 := by decide

theorem test_rfr_sel_home :
    seen (exec .rfrSel { inMed 0 with cursor := 32 }) (fun t => t.hpc.med) = some 1 := by decide

theorem test_rfr_home :
    seen (exec .rfrHome (inMed 1)) (fun t => (t.tw, t.ts, t.hpc.med)) = some (0x002, .setup, 2) := by decide

theorem test_rfr_homew :
    seen (exec .rfrHomew { inMed 2 with cursor := 32 }) (fun t => (t.cursor, t.hpc.med)) = some (0, 7) := by decide

theorem test_rfr_line2 :
    seen (exec .rfrLine2 { inMed 3 with cursor := 16 }) (fun t => (t.tw, t.ts, t.hpc.med)) = some (0x0C0, .setup, 4) := by decide

theorem test_rfr_line2w :
    seen (exec .rfrLine2w { inMed 4 with cursor := 16 }) (fun t => t.hpc.med) = some 5 := by decide

theorem test_rfr_char :
    seen (exec .rfrChar { inMed 5 with cursor := 16 }) (fun t => (t.tByte, t.tw, t.ts, t.hpc.med)) = some (0x41, 0x241, .setup, 6) := by decide

theorem test_rfr_charw :
    seen (exec .rfrCharw { inMed 6 with cursor := 31 }) (fun t => (t.cursor, t.hpc.med)) = some (32, 7) := by decide

theorem test_rfr_charw_waits :
    seen (exec .rfrCharw { inMed 6 with cursor := 5, ts := .ehi }) (fun t => (t.cursor, t.hpc.med)) = some (5, 6) := by decide

theorem test_ini_tick_match :
    seen (exec .iniTick { inFast 0 with initMs := 27 }) (fun t => (t.initMs, t.tSel, t.hpc.fast)) = some (28, 7, 1) := by decide

theorem test_ini_tick_no_match :
    seen (exec .iniTick { inFast 0 with initMs := 25 }) (fun t => (t.initMs, t.hpc.fast)) = some (26, 3) := by decide

theorem test_ini_cmd :
    seen (exec .iniCmd { inFast 1 with tSel := 4 }) (fun t => (t.tw, t.ts, t.hpc.fast)) = some (0x008, .setup, 2) := by decide

theorem test_ini_cmdw_last :
    seen (exec .iniCmdw { inFast 2 with tSel := 7 }) (fun t => (t.initDone, t.hpc.fast)) = some (true, 3) := by decide

theorem test_ini_cmdw_other :
    seen (exec .iniCmdw { inFast 2 with tSel := 3 }) (fun t => (t.initDone, t.hpc.fast)) = some (false, 3) := by decide

theorem test_trn_ehi :
    seen (exec .trnEhi { complete with ts := .setup, tw := 0x235 }) (fun t => (t.ts, t.pins.lcdE, t.tw)) = some (.ehi, true, 0x235) := by decide

theorem test_trn_elo :
    seen (exec .trnElo { complete with ts := .ehi, tw := 0x235 }) (fun t => (t.ts, t.lcdTrace, t.pins.lcdE)) = some (.settle, [(true, 0x35)], false) := by decide

theorem test_trn_done :
    seen (exec .trnDone { complete with ts := .settle }) (fun t => t.ts) = some .idle := by decide

theorem test_lcd_line2 :
    seen (exec .lcdLine2 complete) (fun t => (t.tw, t.ts)) = some (0x0C0, .setup) := by decide

theorem test_lcd_data :
    seen (exec (.lcdData 0x35) complete) (fun t => (t.tw, t.ts)) = some (0x235, .setup) := by decide

/-- The arbiter's turn goes before the running context (95_test_vectors.md 2.9). -/
theorem test_step_dispatches_first :
    seen (step { inCtrl 5 with pend := ⟨false, true, false⟩, agenda := [.machine] }) (fun t => (t.act, t.hpc.ctrl, t.hpc.med)) =
      some (⟨true, true, false⟩, 5, 0) := by decide

/-- `EV = 0x18` with `TS = SETTLE` and init complete (95_test_vectors.md 2.10). -/
theorem test_step_pulse_and_ready :
    seen (step { complete with ts := .settle, agenda := [.event 0x18#7] }) (fun t => (t.pulseCnt, t.ts)) =
      some (1, .idle) := by decide

/-- `EV = 0x01` under reset releases it and latches a fast tick (95_test_vectors.md 2.10). -/
theorem test_step_release :
    seen (step { State.reset with rstActive := true, agenda := [.event 0x01#7] }) (fun t => (t.rstActive, t.pend.fast)) =
      some (false, true) := by decide

/-- A table word placed after reset is run by the next step. -/
theorem test_step_runs_placed_words :
    seen (step (State.reset.withFetchWord 8 0x20)) (fun t => t.ien) = some true ∧
    seen (step (State.reset.withFetchWord 8 0x48)) (fun t => (t.act.ctrl, t.pend.ctrl)) = some (true, false) ∧
    seen (step (State.reset.withFetchWord 8 0x45)) (fun t => t.hpc.ctrl) = some 32 ∧
    seen (step (State.reset.withFetchWord 8 0x03)) (fun t => t.ts) = some .idle ∧
    seen (step (State.reset.withFetchWord 16 0x235)) (fun t => t.tw) = some 0x235 ∧
    seen (step (State.reset.withFetchWord 16 0x00C)) (fun t => t.tw) = some 0x00C := by decide

/-- A running stop is reported by name: an unlisted state code, a busy transport, a cell that does not exist. -/
theorem test_stops :
    step { inMed 9 with agenda := [.machine] } = .refused .noOperation ∧
    exec .rfrHome { inMed 1 with ts := .settle } = .refused .transportBusy ∧
    exec .rfrChar { inMed 5 with cursor := 32 } = .fault .noSuchCell ∧
    exec .rfrCharw { inMed 6 with cursor := 32 } = .refused .widthExceeded ∧
    exec .iniTick { inFast 0 with initMs := 65535 } = .refused .widthExceeded :=
  ⟨rfl, rfl, rfl, rfl, rfl⟩

/-! ### Witnesses: a concrete state and operands that meet the hypotheses of each statement -/

theorem witness_EncodedOperationDecodesToItself :
    Instr.lcdHome.wf Params.refEx = true ∧ (Instr.ctlFmt 31).wf Params.refEx = true := by decide

theorem witness_UnlistedStateCodesAreRefused :
    let s := { inMed 8 with agenda := [Turn.machine] }
    s.cfg.valid = true ∧ s.agenda = .machine :: [] ∧ s.rstActive = false ∧ dispatchRule s = none ∧
    legalStep s.running (s.hpc.get s.running) = false := by decide

theorem witness_StepRunsTheDecodedOperation_machine :
    let s := { inCtrl 3 with agenda := [Turn.machine] }
    s.cfg.valid = true ∧ s.agenda = .machine :: [] ∧ s.rstActive = false ∧ fetchMachine s = .ok .ctlPulses ∧
    enabled .ctlPulses s = true := by decide

theorem witness_StepRunsTheDecodedOperation_transport :
    let s := { complete with ts := .setup, agenda := [Turn.transport] }
    s.cfg.valid = true ∧ s.agenda = .transport :: [] ∧ s.rstActive = false ∧ fetchTransport s = .ok .trnEhi ∧
    enabled .trnEhi s = true := by decide

theorem witness_StepRunsTheDecodedOperation_event :
    decodeEv 0x08#7 = .ok .evPulse ∧ Instr.evPulse ≠ .evRst ∧ decodeEv 0x40#7 = .ok .evRst ∧
    ({ complete with agenda := [Turn.event 0x08#7] } : State).cfg.valid = true := by decide

theorem witness_DispatchGoesBeforeTheRunningContext :
    let s := { inMed 5 with pend := ⟨true, true, true⟩, agenda := [Turn.machine] }
    s.cfg.valid = true ∧ s.agenda = .machine :: [] ∧ s.rstActive = false ∧ dispatchRule s = some .fast := by decide

theorem witness_EventVectorIsItsEventsInAnyOrder :
    let s := { complete with agenda := [Turn.event 0x47#7] }
    let u := { complete with agenda := [Turn.event 0x07#7] }
    s.cfg.valid = true ∧ s.agenda = .event 0x47#7 :: [] ∧ (0x47#7).getLsbD 6 = true ∧
    u.cfg.valid = true ∧ u.agenda = .event 0x07#7 :: [] ∧ (0x07#7).getLsbD 6 = false ∧
    [Instr.evTickC, .evTickF, .evTickM].Perm (decodeEvents 0x07#7) := by decide

theorem witness_EventVectorIsItsEventsInAnyOrder_zero :
    let s := { complete with agenda := [Turn.event 0] }
    s.cfg.valid = true ∧ s.agenda = .event 0 :: [] := by decide

theorem witness_NothingRunsWhileResetIsActive :
    let s := { State.reset with rstActive := true, agenda := [Turn.machine] }
    s.cfg.valid = true ∧ s.rstActive = true ∧ s.agenda = .machine :: [] := by decide

theorem witness_VectorWithoutResetReleasesReset :
    let s := { State.reset with rstActive := true, agenda := [Turn.event 0x01#7] }
    s.cfg.valid = true ∧ s.rstActive = true ∧ s.agenda = .event 0x01#7 :: [] ∧ (0x01#7).getLsbD 6 = false := by decide

theorem witness_InvalidParametersAreRefused :
    let s := { State.reset with cfg := { Params.refEx with minRpm := 1001 } }
    s.cfg.maxRpm < s.cfg.minRpm := by decide

theorem witness_InvalidParametersAreRefused_bounds :
    ({ Params.refEx with maxRpm := 10000 } : Params).maxRpm > 9999 ∧
    (let p : Params := { Params.refEx with kDiv := 65536 }; 2 ^ p.sampleWidth ≤ p.kDiv) ∧
    (let p : Params := { Params.refEx with schedT := #v[16, 16, 22, 23, 24, 25, 27, 28] }
     p.schedT[1].toNat ≤ p.schedT[0].toNat) := by decide

theorem witness_WaitingHandlerHasNoStep :
    let s := { inFast 2 with ts := .settle, agenda := [Turn.machine] }
    s.cfg.valid = true ∧ s.agenda = .machine :: [] ∧ s.rstActive = false ∧ dispatchRule s = none ∧ s.ts ≠ .idle ∧
    stateCode s = 0xC2#8 := by decide

theorem witness_WaitingHandlerHasNoStep_refresh :
    stateCode (inMed 2) = 0x82#8 ∧ stateCode (inMed 4) = 0x84#8 ∧ stateCode (inMed 6) = 0x86#8 ∧
    Instr.rfrCharw ∈ [Instr.iniCmdw, .rfrHomew, .rfrLine2w, .rfrCharw] := by decide

theorem witness_PulseCountsAfterHandover :
    complete.initDone = true ∧ started.initDone = false := by decide

theorem witness_StartEnablesInterruptsOnce :
    let s := { State.reset with agenda := [Turn.machine] }
    s.cfg.valid = true ∧ s.agenda = .machine :: [] ∧ s.rstActive = false ∧ dispatchRule s = none ∧ stateCode s = 0x00#8 := by decide

theorem witness_ActiveResetHoldsRegisters :
    let s := resetRegisters { complete with agenda := [Turn.machine] }
    s.rstActive = true ∧ s.HoldsReset ∧ step s = .next { s with agenda := [] } := by
  refine ⟨rfl, ⟨rfl, rfl, rfl, rfl, rfl, rfl, rfl, rfl, rfl, rfl, rfl, rfl, rfl, rfl, ?_, rfl, rfl⟩, rfl⟩
  decide

theorem witness_BackgroundIdleChangesNothing :
    started.hpc.bg = 1 := by decide

theorem witness_CriticalSectionSavesAndRestoresEnable :
    let s := { inCtrl 3 with cmdSpeed := 250, ien := false, ienSave := true, pend := ⟨true, true, true⟩ }
    s.ien = false ∧ s.inCritical = true ∧ s.Inv := by
  refine ⟨rfl, by decide, by decide, by decide, by decide, fun c => by cases c <;> decide, by decide, by decide, by decide,
    by decide, by decide, by decide, by decide, by decide, by decide, by decide, by decide, by decide, by decide⟩

theorem witness_PreemptedContextsKeepTheirStep :
    ∃ t, step { inMed 5 with act := ⟨true, true, false⟩, hpc := ⟨1, 40, 5, 0⟩, agenda := [.machine] } = .next t ∧
      Context.ctrl ≠ (inMed 5).running := ⟨_, rfl, by decide⟩

theorem witness_PreemptedContextsKeepTheirStep_dispatch :
    ∃ t, step { inCtrl 40 with pend := ⟨false, true, false⟩, agenda := [.machine] } = .next t ∧
      dispatchRule { inCtrl 40 with pend := ⟨false, true, false⟩ } = some .med ∧ t.hpc.med = 0 := ⟨_, rfl, by decide, rfl⟩

theorem witness_PendingAndOverrunAreCleared :
    ∃ t, step { complete with pend := ⟨true, true, false⟩, ovr := ⟨true, false, false⟩, agenda := [.machine] } = .next t ∧
      t.pend.ctrl = true ∧ t.pend.med = false ∧ t.ovr.ctrl = true := ⟨_, rfl, rfl, rfl, rfl⟩

theorem witness_DividerCountsAndCompares :
    (inCtrl 0).cfg.valid = true ∧ (499 + 1) % 2 ^ (inCtrl 0).cfg.sampleWidth = (inCtrl 0).cfg.kDiv := by decide

theorem witness_LiteralDividerCadence :
    (inCtrl 0).cfg.valid = true ∧ (inCtrl 0).cfg.divReload = false ∧ (inCtrl 0).sampleCnt = 0 ∧ 1 ≤ 500 := by decide

theorem witness_PeriodicDividerCadence :
    let s := { inCtrl 0 with cfg := { Params.refEx with divReload := true, kDiv := 1 } }
    s.cfg.valid = true ∧ s.cfg.divReload = true ∧ s.sampleCnt = 0 ∧ s.cfg.kDiv ∣ 3 := by decide

theorem witness_TargetIsScaledAndClamped :
    (inCtrl 1).cfg.valid = true ∧ (inCtrl 1).adc = 0 ∧
    (inCtrl 1).cfg.fullScale ≤ ({ inCtrl 1 with adc := 4095 } : State).adc.toNat := by decide

theorem witness_MeasuredSpeedIsTheFloor :
    (inCtrl 5).cfg.valid = true := by decide

theorem witness_FormatWritesOneCell :
    (11#5).toNat ≤ 11 ∧ 12 ≤ (12#5).toNat ∧ (15#5).toNat ≤ 15 ∧ 16 ≤ (16#5).toNat ∧ (27#5).toNat ≤ 27 ∧
    28 ≤ (28#5).toNat ∧ (30#5).toNat < 31 ∧ (31#5).toNat = 31 ∧ (inCtrl 63).measSpeed.toNat ≤ 9999 := by decide

theorem witness_FullFormatRendersBothSpeeds :
    let s := { inCtrl 32 with cmdSpeed := 1000, measSpeed := 9999 }
    s.cmdSpeed.toNat ≤ 9999 ∧ s.measSpeed.toNat ≤ 9999 := by decide

theorem witness_ProportionalBranchIsDead :
    let s := { inCtrl 6 with cmdSpeed := 1000, measSpeed := 250 }
    s.cfg.valid = true ∧ 1 ≤ s.cfg.minRpm ∧ s.cfg.minRpm ≤ s.cmdSpeed.toNat ∧ s.cmdSpeed.toNat ≤ s.cfg.maxRpm ∧
    s.cfg.minRpm ≤ s.measSpeed.toNat ∧ s.measSpeed.toNat ≤ s.cfg.maxRpm := by decide

theorem witness_ControlLoopDoesNotSeeTheCursor :
    Instr.ctlDuty ∈ [Instr.ctlDiv, .ctlTarget, .csEnter, .ctlPulses, .csExit, .ctlMeasure, .ctlDuty, .retCtrl] := by decide

theorem witness_RefreshCommandsAreIssued :
    (inMed 1).ts = .idle := by decide

theorem witness_CharacterIsReadAndIssued :
    ({ inMed 5 with cursor := 31 } : State).ts = .idle ∧ ({ inMed 5 with cursor := 31 } : State).cursor.val ≤ 31 ∧
    ({ inMed 5 with cursor := 32 } : State).cursor.val = 32 := by decide

theorem witness_RefreshWaitsGoOn :
    ({ inMed 6 with cursor := 31 } : State).ts = .idle ∧ ({ inMed 6 with cursor := 31 } : State).cursor.val ≤ 31 := by decide

theorem witness_RefreshCycleSendsTheFrame :
    complete.initDone = true ∧ complete.ts = .idle ∧ complete.cursor = 0 ∧ complete.rstActive = false ∧
    complete.ien = true ∧ complete.pend.fast = false ∧ complete.act.fast = false ∧ complete.act.med = false := by decide

theorem witness_MediumTickRunsTheRefresh :
    let s := { complete with cursor := 31, agenda := refreshTurns 31 ++ [] }
    s.cfg.valid = true ∧ s.rstActive = false ∧ s.initDone = true ∧ s.ien = true ∧ s.hpc.bg = 1 ∧
    s.pend = ⟨false, false, false⟩ ∧ s.act = ⟨false, false, false⟩ ∧ s.ts = .idle ∧
    s.agenda = refreshTurns s.cursor.val ++ [] := by decide

theorem witness_MediumTickRunsTheRefresh_secondLine :
    let s := { complete with cursor := 16, agenda := refreshTurns 16 ++ [] }
    s.cfg.valid = true ∧ s.rstActive = false ∧ s.initDone = true ∧ s.ien = true ∧ s.hpc.bg = 1 ∧
    s.pend = ⟨false, false, false⟩ ∧ s.act = ⟨false, false, false⟩ ∧ s.ts = .idle ∧
    s.agenda = refreshTurns s.cursor.val ++ [] := by decide

theorem witness_MediumTickRunsTheRefresh_home :
    let s := { complete with cursor := 32, agenda := refreshTurns 32 ++ [] }
    s.cfg.valid = true ∧ s.rstActive = false ∧ s.initDone = true ∧ s.ien = true ∧ s.hpc.bg = 1 ∧
    s.pend = ⟨false, false, false⟩ ∧ s.act = ⟨false, false, false⟩ ∧ s.ts = .idle ∧
    s.agenda = refreshTurns s.cursor.val ++ [] := by decide

theorem witness_InitTickLooksUpTheSchedule :
    (inFast 0).cfg.valid = true ∧ complete.initDone = true ∧
    (let s := { inFast 0 with initMs := 27 }; s.initDone = false ∧ s.initMs.toNat + 1 = s.cfg.schedT[(7 : Fin 8)].toNat) ∧
    (let s := { inFast 0 with initMs := 28 }
     s.initDone = false ∧ s.initMs.toNat < 65535 ∧ ∀ i : Fin 8, s.initMs.toNat + 1 ≠ s.cfg.schedT[i].toNat) := by decide

theorem witness_InitCommandIssuesTheScheduledWord :
    (inFast 1).ts = .idle ∧ (inFast 1).tSel.val ≤ 3 ∧ ({ inFast 1 with tSel := 7 } : State).tSel = 7 := by decide

theorem witness_LastCommandCompletesInit :
    (inFast 2).ts = .idle := by decide

theorem witness_InitNeverReverts :
    ∃ t, step { complete with agenda := [.event 0x01#7] } = .next t ∧ t.initDone = true := ⟨_, rfl, rfl⟩

theorem witness_InitSendsTheScheduleThenCompletes :
    started.cfg.valid = true ∧ started.initMs = 0 ∧ started.initDone = false ∧ started.ts = .idle ∧ 27 < started.cfg.schedT[7].toNat ∧
    started.rstActive = false ∧ started.ien = true ∧ started.act.fast = false := by decide

theorem witness_InitStallsForeverWithoutReady :
    let s := { inFast 2 with ts := .settle, agenda := [Turn.event 0x07#7, .run] }
    s.cfg.valid = true ∧ s.act.fast = true ∧ s.hpc.fast = 2 ∧ s.ts ≠ .idle ∧ Turn.event 0x07#7 ∈ s.agenda ∧
    (0x07#7).getLsbD 4 = false ∧ (0x07#7).getLsbD 6 = false := by decide

theorem witness_TransportWordsAreIssued :
    complete.ts = .idle := by decide

theorem witness_IssueWithBusyTransportIsRefused :
    ({ inMed 1 with ts := .settle } : State).ts ≠ .idle ∧
    Instr.rfrHome ∈ [Instr.iniCmd, .rfrHome, .rfrLine2, .lcdFuncset, .lcdDispoff, .lcdClear, .lcdEntrymode, .lcdDispon,
      .lcdLine2, .lcdHome] ∧ (inMed 5).cursor.val ≤ 31 := by decide

theorem witness_EveryRegisterHasItsWriter :
    ∃ t, exec .ctlDuty { inCtrl 6 with cmdSpeed := 600 } = .next t ∧ t.duty ≠ (inCtrl 6).duty := ⟨_, rfl, by decide⟩

theorem witness_OnlyFormatStoresToTheFrame :
    ∃ t, exec .rfrSel (inMed 0) = .next t ∧ (∀ j, Instr.rfrSel ≠ .ctlFmt j) ∧ Instr.rfrSel ≠ .evRst :=
  ⟨_, rfl, (fun _ h => by cases h), by decide⟩

/-- The refresh handler waiting for the transport, over a preempted control handler, meets the invariant. -/
theorem witness_StepKeepsTheInvariant :
    let s := { complete with
      act := ⟨true, true, false⟩, hpc := ⟨1, 40, 6, 3⟩, ts := .settle, cursor := 16, cmdSpeed := 600,
      fb := [(12, 0x31)], agenda := [Turn.event 0x10#7] }
    s.Inv ∧ ∃ t, step s = .next t ∧ t.ts = .idle := by
  refine ⟨⟨by decide, by decide, by decide, fun c => by cases c <;> decide, by decide, by decide, by decide, by decide,
    by decide, by decide, by decide, by decide, by decide, by decide, by decide, by decide, by decide⟩, _, rfl, rfl⟩

/-- At rest with a transaction waiting for `EV.READY`, which is not quiescent (10_state.md rule R43). -/
theorem witness_RestingBlockWaitsForTheEnvironment :
    let s := { inFast 2 with ts := .settle, agenda := [Turn.run, .machine, .transport] }
    s.cfg.valid = true ∧ s.rstActive = false ∧ atRest s = true ∧ s.ts ≠ .idle ∧ quiescent s = false ∧
    ∀ u ∈ s.agenda, u = .machine ∨ u = .transport ∨ u = .run := by decide

theorem witness_MachineNeverStopsUnderTheInvariant :
    complete.Inv ∧ quiescent complete = true := by
  refine ⟨⟨by decide, by decide, by decide, fun c => by cases c <;> decide, by decide, by decide, by decide, by decide,
    by decide, by decide, by decide, by decide, by decide, by decide, by decide, by decide, by decide⟩, by decide⟩

end Sys2Proof.Tests
end

section
/-! SUPPORT. What each agent fetches: the arbiter's choice, the running context, and the table of state codes. -/

namespace Sys2Proof.Machine

/-! ### The arbiter -/

/-- The dispatch patterns of 30_encoding.md rule R85 say what 00_scope.md rule R13 says: they select the dispatch of the
highest source that is pending above the running context with interrupts enabled, and nothing else. -/
theorem decodeArb_arbVector (s : State) :
    decodeArb (arbVector s) = ((dispatchRule s).map dispatchOf).elim (.error .noDispatch) .ok := by
  have table : ∀ ien pf pm pc af am ac : Bool,
      decodeArb (BitVec.ofBool ien ++ BitVec.ofBool pf ++ BitVec.ofBool pm ++ BitVec.ofBool pc ++
        BitVec.ofBool af ++ BitVec.ofBool am ++ BitVec.ofBool ac) =
      ((dispatchRule { State.reset with ien := ien, pend := ⟨pc, pm, pf⟩, act := ⟨ac, am, af⟩ }).map dispatchOf).elim
        (.error .noDispatch) .ok := by decide
  exact table s.ien s.pend.fast s.pend.med s.pend.ctrl s.act.fast s.act.med s.act.ctrl

theorem fetchMachine_of_dispatch {s : State} {src : Source} (h : dispatchRule s = some src) :
    fetchMachine s = .ok (dispatchOf src) := by
  simp [fetchMachine, decodeArb_arbVector, h]

theorem fetchMachine_of_no_dispatch {s : State} (h : dispatchRule s = none) :
    fetchMachine s = decodeSt (stateCode s) := by
  simp [fetchMachine, decodeArb_arbVector, h]

/-- With interrupts disabled nothing is dispatched. -/
theorem dispatchRule_of_disabled {s : State} (h : s.ien = false) : dispatchRule s = none := by
  simp [dispatchRule, wantsDispatch, h]

/-- Dispatching enters the handler of the source. -/
@[simp] theorem exec_dispatchOf (src : Source) (s : State) : exec (dispatchOf src) s = .next (enterHandler src s) := by
  cases src <;> rfl

/-- A dispatch is never a wait. -/
@[simp] theorem enabled_dispatchOf (src : Source) (s : State) : enabled (dispatchOf src) s = true := by
  cases src <;> rfl

/-! ### The running context and its state code -/

theorem running_eq_fast {s : State} : s.running = .fast ↔ s.act.fast = true := by
  unfold State.running
  split_ifs <;> simp_all

theorem running_eq_med {s : State} : s.running = .med ↔ s.act.fast = false ∧ s.act.med = true := by
  unfold State.running
  split_ifs <;> simp_all

theorem running_eq_ctrl {s : State} :
    s.running = .ctrl ↔ s.act.fast = false ∧ s.act.med = false ∧ s.act.ctrl = true := by
  unfold State.running
  split_ifs <;> simp_all

theorem running_eq_bg {s : State} :
    s.running = .bg ↔ s.act.fast = false ∧ s.act.med = false ∧ s.act.ctrl = false := by
  unfold State.running
  split_ifs <;> simp_all

/-- A context is recovered from its code (30_encoding.md rule R84). -/
@[simp] theorem Context.ofCode_code (c : Context) : Context.ofCode c.code = c := by
  cases c <;> rfl

/-- A state code names its context and its step. -/
theorem contextCode_append_inj {c d : Context} {m n : BitVec 6} :
    c.code ++ m = d.code ++ n ↔ c = d ∧ m = n := by
  constructor
  · intro h
    have low : m = n := by
      rw [← BitVec.extractLsb'_append_eq_right (a := c.code) (b := m), h, BitVec.extractLsb'_append_eq_right]
    subst low
    have high : c.code = d.code := (BitVec.append_left_inj m).mp h
    exact ⟨by rw [← Context.ofCode_code c, high, Context.ofCode_code], rfl⟩
  · rintro ⟨rfl, rfl⟩
    rfl

/-- The state code shows which context runs and where it stands (30_encoding.md rule R86). -/
theorem stateCode_eq_iff {s : State} {c : Context} {n : BitVec 6} :
    stateCode s = c.code ++ n ↔ s.running = c ∧ s.hpc.get c = n := by
  rw [stateCode, contextCode_append_inj]
  constructor
  · rintro ⟨rfl, h⟩
    exact ⟨rfl, h⟩
  · rintro ⟨rfl, h⟩
    exact ⟨rfl, h⟩

/-- Every listed step code selects an operation (30_encoding.md rule R96). -/
theorem decodeSt_of_legal {c : Context} {n : BitVec 6} (h : legalStep c n = true) :
    ∃ i, decodeSt (c.code ++ n) = .ok i := by
  have table : ∀ n : BitVec 6, legalStep c n = true → (decodeSt (c.code ++ n)).isOk = true := by
    cases c <;> decide
  have hok := table n h
  cases hd : decodeSt (c.code ++ n) with
  | ok i => exact ⟨i, rfl⟩
  | error e => rw [hd] at hok; cases hok

/-- A state code that selects an operation is that of a `CTL.FMT` or a row of the table. -/
theorem decodeSt_ok {w : BitVec 8} {i : Instr} (h : decodeSt w = .ok i) :
    i = .ctlFmt (w.extractLsb' 0 5) ∨ (w, i) ∈ stateTable := by
  unfold decodeSt at h
  split at h
  · left; injection h with h; exact h.symm
  · split at h
    · next row hrow =>
      have hw : row.1 = w := by simpa using List.find?_some hrow
      have hi : row.2 = i := by injection h
      exact .inr (hw ▸ hi ▸ List.mem_of_find?_eq_some hrow)
    · cases h

/-! ### A context that runs undisturbed -/

/-- Context `c` runs at step `n`, with reset not active and no dispatch wanted. -/
structure Runs (c : Context) (n : BitVec 6) (s : State) : Prop where
  released : s.rstActive = false
  noDispatch : dispatchRule s = none
  running : s.running = c
  atStep : s.hpc.get c = n

/-- The machine then fetches the operation of that step. -/
theorem Runs.fetch {c : Context} {n : BitVec 6} {s : State} (h : Runs c n s) :
    fetchMachine s = decodeSt (c.code ++ n) := by
  rw [fetchMachine_of_no_dispatch h.noDispatch, stateCode_eq_iff.mpr ⟨h.running, h.atStep⟩]

/-- Nothing is above `FAST`. -/
theorem runs_fast {s : State} {n : BitVec 6} (hr : s.rstActive = false) (ha : s.act.fast = true)
    (hn : s.hpc.fast = n) : Runs .fast n s :=
  have hrun : s.running = .fast := running_eq_fast.mpr ha
  ⟨hr, by simp [dispatchRule, wantsDispatch, hrun, Context.prio, Source.context], hrun, hn⟩

/-- Only `FAST` is above `MED`. -/
theorem runs_med {s : State} {n : BitVec 6} (hr : s.rstActive = false) (hf : s.act.fast = false)
    (hp : s.pend.fast = false) (ha : s.act.med = true) (hn : s.hpc.med = n) : Runs .med n s :=
  have hrun : s.running = .med := running_eq_med.mpr ⟨hf, ha⟩
  ⟨hr, by simp [dispatchRule, wantsDispatch, hrun, hp, Context.prio, Source.context, SourceBits.get], hrun, hn⟩

end Sys2Proof.Machine
end

section
/-! The statements about one step: O10, O5, O6 and O11. -/

namespace Sys2Proof.Machine

/-! ### The parameter record (00_scope.md rule R7) -/

/-- The schedule rises from entry to entry. -/
theorem schedT_strictMono {p : Params} (h : p.valid = true) : StrictMono fun i : Fin 8 => p.schedT[i].toNat := by
  have hs : p.scheduleOk = true := (Bool.and_eq_true_iff.mp h).2
  simp only [Params.scheduleOk, Bool.and_eq_true, decide_eq_true_eq] at hs
  rw [Fin.strictMono_iff_lt_succ]
  intro i
  fin_cases i <;> simp <;> omega

/-- What a valid record says, one constraint at a time. -/
theorem valid_bounds {p : Params} (h : p.valid = true) :
    (p.minRpm ≤ p.maxRpm ∧ 1 ≤ p.maxRpm ∧ p.maxRpm ≤ 9999) ∧
    (1 ≤ p.sampleWidth ∧ p.sampleWidth ≤ 32 ∧ 1 ≤ p.kDiv ∧ p.kDiv < 2 ^ p.sampleWidth) ∧
    (1 ≤ p.fullScale ∧ p.fullScale ≤ 65535 ∧ 1 ≤ p.windowConst ∧ p.windowConst ≤ 65535) ∧
    1 ≤ p.schedT[0].toNat := by
  simp only [Params.valid, Params.speedsOk, Params.dividerOk, Params.scalesOk, Params.scheduleOk, Bool.and_eq_true,
    decide_eq_true_eq] at h
  tauto

/-- Settles O10: under a valid record none of the violations holds. -/
theorem invalidParametersAreRefused : Obligations.InvalidParametersAreRefused := by
  intro s violation
  refine if_neg fun h => ?_
  obtain ⟨hspeeds, hdivider, hscales, hfirst⟩ := valid_bounds h
  have rises : ¬ ∃ i j : Fin 8, i < j ∧ s.cfg.schedT[j].toNat ≤ s.cfg.schedT[i].toNat :=
    fun ⟨_, _, hij, hle⟩ => Nat.not_lt.mpr hle (schedT_strictMono h hij)
  simp only [rises, or_false] at violation
  omega

/-! ### The turns -/

@[simp] theorem andThen_next_right (r : Result) : andThen r .next = r := by
  cases r <;> rfl

@[simp] theorem execAll_singleton (i : Instr) (s : State) : execAll [i] s = exec i s :=
  andThen_next_right _

/-- The machine's turn with reset not active performs what the machine fetches. -/
theorem machineTurn_of_fetch {s : State} {i : Instr} (hr : s.rstActive = false) (hf : fetchMachine s = .ok i) :
    machineTurn s = perform i s := by
  simp [machineTurn, hr, hf]

/-- The transport's turn with reset not active performs its phase. -/
theorem transportTurn_of_fetch {s : State} {i : Instr} (hr : s.rstActive = false) (hf : fetchTransport s = .ok i) :
    transportTurn s = perform i s := by
  simp [transportTurn, hr, hf]

theorem perform_of_enabled {i : Instr} {s : State} (h : enabled i s = true) : perform i s = exec i s := if_pos h

theorem perform_of_not_enabled {i : Instr} {s : State} (h : enabled i s = false) : perform i s = .next s :=
  if_neg (by simp [h])

/-- The machine's turn is the operation it fetches, when that is enabled. -/
theorem machineTurn_eq_exec {s : State} {i : Instr} (hr : s.rstActive = false) (hf : fetchMachine s = .ok i)
    (he : enabled i s = true) : machineTurn s = exec i s := by
  rw [machineTurn_of_fetch hr hf, perform_of_enabled he]

/-- The transport's turn is the phase it decodes, when that is enabled. -/
theorem transportTurn_eq_exec {s : State} {i : Instr} (hr : s.rstActive = false) (hf : fetchTransport s = .ok i)
    (he : enabled i s = true) : transportTurn s = exec i s := by
  rw [transportTurn_of_fetch hr hf, perform_of_enabled he]

theorem decodeEvents_of_decodeEv {w : BitVec 7} {i : Instr} (h : decodeEv w = .ok i) : decodeEvents w = [i] := by
  unfold decodeEv at h
  split at h
  · next j hj => injection h with h; rw [hj, h]
  · cases h

/-- `EV.RST` is among the events of a vector exactly when its bit is set (30_encoding.md rule R83). -/
theorem evRst_mem_decodeEvents {w : BitVec 7} : Instr.evRst ∈ decodeEvents w ↔ w[6] = true := by
  unfold decodeEvents
  split
  · next h => simp [h]
  · next h => simp [h]

/-- The vector of one event other than a reset performs it, after releasing a reset in force. -/
theorem eventTurn_of_event {w : BitVec 7} {i : Instr} (s : State) (h : decodeEv w = .ok i) (hi : i ≠ .evRst) :
    eventTurn w s = exec i (releaseReset s) := by
  have hl := decodeEvents_of_decodeEv h
  have hw : ¬ w[6] = true := fun hw => hi (by simpa [hl, eq_comm] using evRst_mem_decodeEvents.mpr hw)
  rw [eventTurn, if_neg hw, hl, execAll_singleton]

/-- The vector of a reset performs it. -/
theorem eventTurn_of_reset {w : BitVec 7} (s : State) (h : decodeEv w = .ok .evRst) :
    eventTurn w s = exec .evRst s :=
  if_pos (evRst_mem_decodeEvents.mp (by simp [decodeEvents_of_decodeEv h]))

section Turns
variable {s : State} {rest : List Turn}

theorem step_machine (hv : s.cfg.valid = true) (ha : s.agenda = .machine :: rest) :
    step s = machineTurn { s with agenda := rest } := by
  rw [step_of_valid hv, takeTurn, ha]

theorem step_transport (hv : s.cfg.valid = true) (ha : s.agenda = .transport :: rest) :
    step s = transportTurn { s with agenda := rest } := by
  rw [step_of_valid hv, takeTurn, ha]

theorem step_event {w : BitVec 7} (hv : s.cfg.valid = true) (ha : s.agenda = .event w :: rest) :
    step s = eventTurn w { s with agenda := rest } := by
  rw [step_of_valid hv, takeTurn, ha]

end Turns

/-- Settles O5: each turn is its agent's, and an enabled operation is performed. -/
theorem stepRunsTheDecodedOperation : Obligations.StepRunsTheDecodedOperation := by
  intro s rest i hv
  refine ⟨fun ha hr hf he => ?_, fun ha hr hf he => ?_, fun w ha hd hi => ?_, fun w ha hd => ?_⟩
  · exact (step_machine hv ha).trans (machineTurn_eq_exec (s := { s with agenda := rest }) hr hf he)
  · exact (step_transport hv ha).trans (transportTurn_eq_exec (s := { s with agenda := rest }) hr hf he)
  · exact (step_event hv ha).trans (eventTurn_of_event _ hd hi)
  · exact (step_event hv ha).trans (eventTurn_of_reset _ hd)

/-- Settles O6: the machine fetches the dispatch, which enters the handler. -/
theorem dispatchGoesBeforeTheRunningContext : Obligations.DispatchGoesBeforeTheRunningContext := by
  intro s rest src hv ha hr hd
  calc step s
    _ = machineTurn { s with agenda := rest } := step_machine hv ha
    _ = exec (dispatchOf src) { s with agenda := rest } :=
        machineTurn_eq_exec (s := { s with agenda := rest }) hr (fetchMachine_of_dispatch hd)
          (enabled_dispatchOf src _)
    _ = .next (enterHandler src { s with agenda := rest }) := exec_dispatchOf src _

/-! ### Waiting for the transport -/

/-- The four wait operations (42_transport.md rule R150). -/
def waitOps : List Instr := [.iniCmdw, .rfrHomew, .rfrLine2w, .rfrCharw]

theorem enabled_of_wait {i : Instr} (h : i ∈ waitOps) (s : State) : enabled i s = decide (s.ts = .idle) := by
  simp only [waitOps, List.mem_cons, List.not_mem_nil, or_false] at h
  rcases h with rfl | rfl | rfl | rfl <;> rfl

theorem whenIdle_of_idle {s : State} (h : s.ts = .idle) (k : Result) : whenIdle s k = k := if_pos h

theorem whenIdle_of_busy {s : State} (h : s.ts ≠ .idle) (k : Result) : whenIdle s k = .next s := if_neg h

/-- Performed while the transport is busy, a wait operation changes nothing. -/
theorem exec_wait_busy {i : Instr} (h : i ∈ waitOps) {s : State} (hb : s.ts ≠ .idle) : exec i s = .next s := by
  simp only [waitOps, List.mem_cons, List.not_mem_nil, or_false] at h
  rcases h with rfl | rfl | rfl | rfl <;> exact whenIdle_of_busy hb _

/-- At a wait operation, with the transport busy, the machine has no step. -/
theorem machineTurn_wait_busy {s : State} {i : Instr} (hr : s.rstActive = false) (hd : dispatchRule s = none)
    (hb : s.ts ≠ .idle) (hi : i ∈ waitOps) (hc : decodeSt (stateCode s) = .ok i) : machineTurn s = .next s := by
  have he : enabled i s = false := by simp [enabled_of_wait hi, hb]
  rw [machineTurn_of_fetch (i := i) hr (by rw [fetchMachine_of_no_dispatch hd, hc]), perform_of_not_enabled he]

/-- Settles O11: the four codes select the four wait operations. -/
theorem waitingHandlerHasNoStep : Obligations.WaitingHandlerHasNoStep := by
  refine ⟨fun s rest hv ha hr hd hb hcode => ?_, fun s i hi hb => exec_wait_busy hi hb⟩
  have hwait : ∃ i ∈ waitOps, decodeSt (stateCode s) = .ok i := by
    rcases hcode with h | h | h | h <;> rw [h]
    · exact ⟨.iniCmdw, by decide, rfl⟩
    · exact ⟨.rfrHomew, by decide, rfl⟩
    · exact ⟨.rfrLine2w, by decide, rfl⟩
    · exact ⟨.rfrCharw, by decide, rfl⟩
  obtain ⟨i, hi, hc⟩ := hwait
  rw [step_machine hv ha]
  exact machineTurn_wait_busy (s := { s with agenda := rest }) hr hd hb hi hc

end Sys2Proof.Machine
end

section
/-! O55: a state that meets the invariant never stops. Few operations can stop at all; the machine fetches each of those
at one state code, and the invariant excludes there what would stop it. -/

namespace Sys2Proof.Machine

/-- The operation answers a next state. -/
def Answers (r : Result) : Prop := ∃ t, r = .next t

/-- The operations whose meaning has a fault or a refusal: those that issue a word, and the two counters that the width
of their register bounds. -/
def mayStop : Instr → Bool
  | .iniTick | .iniCmd | .rfrHome | .rfrLine2 | .rfrChar | .rfrCharw => true
  | .lcdFuncset | .lcdDispoff | .lcdClear | .lcdEntrymode | .lcdDispon | .lcdLine2 | .lcdHome | .lcdData _ => true
  | _ => false

theorem answers_next (s : State) : Answers (.next s) := ⟨s, rfl⟩

theorem answers_andThen {r : Result} {k : State → Result} (hr : Answers r) (hk : ∀ t, Answers (k t)) :
    Answers (andThen r k) := by
  obtain ⟨t, rfl⟩ := hr
  exact hk t

theorem answers_whenIdle {s : State} {k : Result} (h : s.ts = .idle → Answers k) : Answers (whenIdle s k) := by
  unfold whenIdle
  split
  · next hs => exact h hs
  · exact answers_next s

/-- A byte goes to every cell of the frame. -/
theorem answers_memWrite {a : Nat} (h : a < 32) (v : Byte) (s : State) : Answers (memWrite a v s) := ⟨_, if_pos h⟩

/-- Every other operation has a next state in every state. -/
theorem answers_exec {i : Instr} (h : mayStop i = false) (s : State) : Answers (exec i s) := by
  cases i
  case ctlDiv =>
    simp only [exec, execCtlDiv]
    split <;> exact answers_next _
  case ctlFmt k => exact answers_andThen (answers_memWrite k.isLt _ _) fun t => answers_next _
  case iniCmdw => exact answers_whenIdle fun _ => answers_next _
  case rfrHomew => exact answers_whenIdle fun _ => answers_next _
  case rfrLine2w => exact answers_whenIdle fun _ => answers_next _
  all_goals cases h
  all_goals exact answers_next _

theorem answers_execAll {l : List Instr} (h : ∀ i ∈ l, mayStop i = false) (s : State) : Answers (execAll l s) := by
  induction l generalizing s with
  | nil => exact answers_next s
  | cons i l ih =>
    exact answers_andThen (answers_exec (h i (by simp)) s) (ih fun j hj => h j (by simp [hj]))

/-! ### The agents that never stop -/

/-- No event stops. -/
theorem mayStop_of_event {w : BitVec 7} {i : Instr} (h : i ∈ decodeEvents w) : mayStop i = false := by
  have table : ∀ w : BitVec 7, ∀ j ∈ decodeEvents w, mayStop j = false := by decide
  exact table w i h

theorem answers_eventTurn (w : BitVec 7) (s : State) : Answers (eventTurn w s) := by
  unfold eventTurn
  split
  · exact answers_next _
  · exact answers_execAll (fun _ => mayStop_of_event) _

theorem answers_perform {i : Instr} {s : State} (h : enabled i s = true → Answers (exec i s)) :
    Answers (perform i s) := by
  unfold perform
  split
  · next he => exact h he
  · exact answers_next s

/-- No phase of the transport stops. -/
theorem mayStop_of_phase {w : BitVec 2} {i : Instr} (h : decodeTp w = .ok i) : mayStop i = false := by
  unfold decodeTp at h
  split_ifs at h <;> cases h <;> rfl

theorem answers_transportTurn (s : State) : Answers (transportTurn s) := by
  unfold transportTurn
  split
  · exact answers_next s
  · split
    · next i hi => exact answers_perform fun _ => answers_exec (mayStop_of_phase hi) s
    · exact answers_next s

/-! ### The machine -/

/-- Where the machine fetches an operation that may stop. -/
def stoppingSteps : List (Context × BitVec 6 × Instr) :=
  [(.fast, 0, .iniTick), (.fast, 1, .iniCmd), (.med, 1, .rfrHome), (.med, 3, .rfrLine2), (.med, 5, .rfrChar),
   (.med, 6, .rfrCharw)]

theorem stoppingSteps_of_decodeSt {s : State} {i : Instr} (h : decodeSt (stateCode s) = .ok i)
    (hm : mayStop i = true) : (s.running, s.hpc.get s.running, i) ∈ stoppingSteps := by
  have rows : ∀ row ∈ stateTable, mayStop row.2 = true →
      ∃ r ∈ stoppingSteps, row = (r.1.code ++ r.2.1, r.2.2) := by decide
  rcases decodeSt_ok h with rfl | hrow
  · cases hm
  · obtain ⟨⟨c, n, j⟩, hr, heq⟩ := rows _ hrow hm
    obtain ⟨hcode, rfl⟩ := Prod.mk.inj heq
    obtain ⟨hrun, hn⟩ := stateCode_eq_iff.mp hcode
    rw [hrun, hn]
    exact hr

section Invariant
variable {s : State}

/-- The invariant does not speak of the turns to come. -/
theorem State.Inv.withAgenda (h : s.Inv) (l : List Turn) : ({ s with agenda := l } : State).Inv :=
  ⟨h.params, h.frame, h.sample, h.steps, h.background, h.disabled, h.critical, h.transfer, h.readWrite, h.command,
    h.complete, h.progress, h.refresh, h.cursorAt, h.cursorStart, h.pulses, h.commanded⟩

/-- Before completion the refresh does not wait for the transport. -/
theorem State.Inv.not_atRefreshWait (h : s.Inv) (hd : s.initDone = false) : s.atRefreshWait = false := by
  by_contra hw
  have hr : s.inRefresh = true := by
    simp only [State.atRefreshWait, State.inRefresh, Bool.not_eq_false, Bool.and_eq_true, Bool.or_eq_true,
      decide_eq_true_eq] at hw ⊢
    obtain ⟨ha, (hn | hn) | hn⟩ := hw <;> simp [ha, hn]
  rw [h.refresh hr] at hd
  cases hd

/-- Where `INI.CMD` issues, the transport is idle (42_transport.md rule R147). -/
theorem State.Inv.idle_at_iniCmd (h : s.Inv) (ha : s.act.fast = true) (hn : s.hpc.fast = 1) : s.ts = .idle := by
  by_contra hb
  have hc : s.inCommand = true := by simp [State.inCommand, ha, hn]
  have hw := h.transfer hb
  rw [h.not_atRefreshWait (h.command hc).1] at hw
  simp [State.atInitWait, hn] at hw

/-- Where `MED` runs and does not wait, the transport is idle (42_transport.md rule R147). -/
theorem State.Inv.idle_at_refresh_issue (h : s.Inv) (hf : s.act.fast = false)
    (hn : s.hpc.med = 1 ∨ s.hpc.med = 3 ∨ s.hpc.med = 5) : s.ts = .idle := by
  by_contra hb
  have hw := h.transfer hb
  rcases hn with hn | hn | hn <;> simp [State.atInitWait, State.atRefreshWait, hf, hn] at hw

/-- A tick that is counted leaves `INIT_MS` within its width (40_display_init.md rule R111). -/
theorem State.Inv.initMs_lt (h : s.Inv) (hn : s.hpc.fast = 0) (hd : s.initDone = false) :
    s.initMs.toNat + 1 < 2 ^ 16 := by
  have hlt : s.initMs.toNat < s.cfg.schedT[7].toNat := (h.progress hd).resolve_right fun hc => by
    simp [State.inCommand, hn] at hc
  have := s.cfg.schedT[7].isLt
  omega

theorem State.Inv.answers_iniTick (h : s.Inv) (hn : s.hpc.fast = 0) : Answers (exec .iniTick s) := by
  simp only [exec, execIniTick]
  split
  · exact answers_next _
  · next hd =>
    rw [if_pos (h.initMs_lt hn (by simpa using hd))]
    split <;> exact answers_next _

/-- From an idle transport, whatever the multiplexer shows is issued. -/
theorem answers_issueSelected {sel : MuxSelect} (hi : s.ts = .idle) (hm : (muxOutput sel s).isSome) :
    Answers (issueSelected sel s) := by
  obtain ⟨⟨rs, b⟩, hb⟩ := Option.isSome_iff_exists.mp hm
  simp only [issueSelected, hb, issue_idle rs b hi]
  exact answers_next _

/-- Within the frame there is a byte to read. -/
theorem memRead_of_lt {a : Nat} (h : a < 32) : memRead s a = some (Memory.cell s.cfg.fbReset s.fb a) := if_pos h

theorem answers_rfrChar (hi : s.ts = .idle) (hc : s.cursor.val ≤ 31) : Answers (exec .rfrChar s) := by
  have hlt : s.cursor.val < 32 := by omega
  simp only [exec, execRfrChar, memRead_of_lt hlt]
  refine answers_andThen (answers_issueSelected hi ?_) fun t => answers_next _
  simp [muxOutput, memRead, hlt]

theorem answers_rfrCharw (hc : s.cursor.val ≤ 31) : Answers (exec .rfrCharw s) :=
  answers_whenIdle fun _ => by
    rw [dif_pos (by omega)]
    exact answers_next _

/-- Under the invariant the operation at the running context's step does not stop. -/
theorem State.Inv.answers_fetched (h : s.Inv) {i : Instr} (hi : decodeSt (stateCode s) = .ok i) :
    Answers (exec i s) := by
  cases hm : mayStop i
  · exact answers_exec hm s
  have hstep := stoppingSteps_of_decodeSt hi hm
  have hmed : s.running = .med →
      s.act.fast = false ∧ (s.hpc.med = 5 ∨ s.hpc.med = 6 → s.cursor.val ≤ 31) := fun hrun => by
    obtain ⟨hf, ha⟩ := running_eq_med.mp hrun
    obtain ⟨-, -, hlast⟩ := h.cursorAt ha
    exact ⟨hf, hlast⟩
  simp only [stoppingSteps, List.mem_cons, Prod.mk.injEq, List.not_mem_nil, or_false] at hstep
  rcases hstep with ⟨hrun, hn, rfl⟩ | ⟨hrun, hn, rfl⟩ | ⟨hrun, hn, rfl⟩ | ⟨hrun, hn, rfl⟩ | ⟨hrun, hn, rfl⟩ |
    ⟨hrun, hn, rfl⟩
  all_goals rw [hrun] at hn
  · exact h.answers_iniTick hn
  · have hidle := h.idle_at_iniCmd (running_eq_fast.mp hrun) hn
    exact answers_andThen (answers_issueSelected hidle rfl) fun t => answers_next _
  · have hidle := h.idle_at_refresh_issue (hmed hrun).1 (.inl hn)
    exact answers_andThen (answers_issueSelected hidle rfl) fun t => answers_next _
  · have hidle := h.idle_at_refresh_issue (hmed hrun).1 (.inr (.inl hn))
    exact answers_andThen (answers_issueSelected hidle rfl) fun t => answers_next _
  · exact answers_rfrChar (h.idle_at_refresh_issue (hmed hrun).1 (.inr (.inr hn))) ((hmed hrun).2 (.inl hn))
  · exact answers_rfrCharw ((hmed hrun).2 (.inr hn))

theorem State.Inv.answers_machineTurn (h : s.Inv) : Answers (machineTurn s) := by
  cases hr : s.rstActive
  case true => exact ⟨s, by simp [machineTurn, hr]⟩
  cases hd : dispatchRule s with
  | some src =>
    rw [machineTurn_of_fetch hr (fetchMachine_of_dispatch hd)]
    exact answers_perform fun _ => ⟨_, exec_dispatchOf src s⟩
  | none =>
    obtain ⟨i, hi⟩ := decodeSt_of_legal (h.steps s.running)
    rw [machineTurn_of_fetch hr ((fetchMachine_of_no_dispatch hd).trans hi)]
    exact answers_perform fun _ => h.answers_fetched hi

theorem State.Inv.answers_autoTurn (h : s.Inv) : Answers (autoTurn s) := by
  unfold autoTurn
  split
  · exact h.answers_machineTurn
  · split
    · exact answers_transportTurn s
    · exact answers_next s

/-- No turn stops under the invariant. -/
theorem State.Inv.answers_takeTurn (h : s.Inv) : Answers (takeTurn s) := by
  unfold takeTurn
  split
  · exact h.answers_autoTurn
  · exact answers_eventTurn _ _
  · exact answers_next _
  · next rest _ => exact (h.withAgenda rest).answers_machineTurn
  · exact answers_transportTurn _
  · split
    · exact answers_next _
    · exact h.answers_autoTurn

end Invariant

/-- Settles O55: the record is valid, and no turn stops. -/
theorem machineNeverStopsUnderTheInvariant : Obligations.MachineNeverStopsUnderTheInvariant := by
  intro s h
  rw [step_of_valid h.params]
  exact h.answers_takeTurn

end Sys2Proof.Machine
end

section
/-! O21: the critical section. -/

namespace Sys2Proof.Machine

/-- With interrupts disabled the arbiter selects nothing. -/
theorem decodeArb_of_disabled {s : State} (h : s.ien = false) : decodeArb (arbVector s) = .error .noDispatch := by
  simp [decodeArb_arbVector, dispatchRule_of_disabled h]

/-- Under the invariant the critical section runs in `CTRL`, with nothing to dispatch (45_scheduler.md rule R212). -/
theorem State.Inv.runs_inCritical {s : State} (h : s.Inv) (hc : s.inCritical = true) :
    dispatchRule s = none ∧ s.running = .ctrl ∧ (s.hpc.ctrl = 3 ∨ s.hpc.ctrl = 4) := by
  obtain ⟨hien, -, hmed, hfast⟩ := h.critical hc
  simp only [State.inCritical, Bool.and_eq_true, Bool.or_eq_true, decide_eq_true_eq] at hc
  exact ⟨dispatchRule_of_disabled hien, running_eq_ctrl.mpr ⟨hfast, hmed, hc.1⟩, hc.2⟩

/-- Settles O21: the enable is 0 between the two operations, and with the enable 0 nothing is dispatched. -/
theorem criticalSectionSavesAndRestoresEnable : Obligations.CriticalSectionSavesAndRestoresEnable := by
  refine ⟨⟨rfl, rfl⟩, fun s => ⟨rfl, rfl⟩, fun s => ⟨_, rfl, rfl, rfl⟩, fun s hien => ?_, fun s h hc => ?_⟩
  · refine ⟨dispatchRule_of_disabled hien, fun i hi => ?_⟩
    rw [decodeArb_of_disabled hien] at hi
    cases hi
  · obtain ⟨hd, hrun, hn⟩ := h.runs_inCritical hc
    refine ⟨hd, hrun, ?_⟩
    rw [fetchMachine_of_no_dispatch hd]
    rcases hn with hn | hn
    · exact .inl (congrArg decodeSt (stateCode_eq_iff.mpr ⟨hrun, hn⟩))
    · exact .inr (congrArg decodeSt (stateCode_eq_iff.mpr ⟨hrun, hn⟩))

end Sys2Proof.Machine
end

section
/-! What every operation leaves alone: the parameter record, the `adc` level and the turns to come, on which no operation
depends either. -/

namespace Sys2Proof.Machine

/-- The state with other turns to come. -/
def State.withTurns (s : State) (l : List Turn) : State := { s with agenda := l }

/-- `f` keeps the record, the level and the turns, and does the same whatever the turns are. -/
structure KeepsEnvironment (f : State → Result) (s t : State) : Prop where
  cfg : t.cfg = s.cfg
  adc : t.adc = s.adc
  agenda : t.agenda = s.agenda
  anyTurns : ∀ l, f (s.withTurns l) = .next (t.withTurns l)

/-- Whenever `f` answers, it has kept the environment. -/
def EnvironmentFree (f : State → Result) : Prop := ∀ s t, f s = .next t → KeepsEnvironment f s t

/-- An update of the block's own registers. -/
theorem EnvironmentFree.update {f : State → State} (hc : ∀ s, (f s).cfg = s.cfg := by intros; rfl)
    (ha : ∀ s, (f s).adc = s.adc := by intros; rfl) (hg : ∀ s, (f s).agenda = s.agenda := by intros; rfl)
    (hl : ∀ s l, f (s.withTurns l) = (f s).withTurns l := by intros; rfl) :
    EnvironmentFree fun s => .next (f s) := by
  rintro s _ ⟨⟩
  exact ⟨hc s, ha s, hg s, fun l => congrArg _ (hl s l)⟩

/-- An operation that stops. -/
theorem EnvironmentFree.refused (r : Refusal) : EnvironmentFree fun _ => .refused r := by
  rintro _ _ ⟨⟩

/-- A choice that does not look at the turns. -/
theorem EnvironmentFree.ite {c : State → Prop} [DecidablePred c] {f g : State → Result}
    (hc : ∀ s l, c (s.withTurns l) ↔ c s) (hf : EnvironmentFree f) (hg : EnvironmentFree g) :
    EnvironmentFree fun s => if c s then f s else g s := by
  intro s t h
  by_cases hs : c s
  · simp only [if_pos hs] at h
    obtain ⟨hcfg, hadc, hagenda, hany⟩ := hf s t h
    exact ⟨hcfg, hadc, hagenda, fun l => by simp only [if_pos ((hc s l).mpr hs), hany]⟩
  · simp only [if_neg hs] at h
    obtain ⟨hcfg, hadc, hagenda, hany⟩ := hg s t h
    exact ⟨hcfg, hadc, hagenda, fun l => by simp only [if_neg (mt (hc s l).mp hs), hany]⟩

theorem EnvironmentFree.andThen {f g : State → Result} (hf : EnvironmentFree f) (hg : EnvironmentFree g) :
    EnvironmentFree fun s => andThen (f s) g := by
  intro s t h
  obtain ⟨u, hu, ht⟩ := andThen_next_iff.mp h
  obtain ⟨hcfg, hadc, hagenda, hany⟩ := hf s u hu
  obtain ⟨hcfg', hadc', hagenda', hany'⟩ := hg u t ht
  exact ⟨hcfg'.trans hcfg, hadc'.trans hadc, hagenda'.trans hagenda, fun l => by simp only [hany, andThen_next, hany']⟩

/-- A choice between two updates. -/
theorem EnvironmentFree.iteUpdate {c : State → Prop} [DecidablePred c] {f g : State → State}
    (hc : ∀ s l, c (s.withTurns l) ↔ c s) (hf : EnvironmentFree fun s => .next (f s))
    (hg : EnvironmentFree fun s => .next (g s)) : EnvironmentFree fun s => .next (if c s then f s else g s) := by
  simpa only [apply_ite] using EnvironmentFree.ite hc hf hg

/-- An update before `f`. -/
theorem EnvironmentFree.after {f : State → Result} {g : State → State} (hf : EnvironmentFree f)
    (hg : EnvironmentFree fun s => .next (g s)) : EnvironmentFree fun s => f (g s) :=
  .andThen hg hf

/-- Leaving the state as it is. -/
theorem EnvironmentFree.unchanged : EnvironmentFree .next :=
  .update

/-- Going on to a step of a context. -/
theorem EnvironmentFree.setStep (c : Context) (n : BitVec 6) : EnvironmentFree fun s => .next (s.setStep c n) :=
  .update

/-- Issuing a byte that does not depend on the turns. -/
theorem EnvironmentFree.issue (rs : Bool) {b : State → Byte} (hb : ∀ s l, b (s.withTurns l) = b s) :
    EnvironmentFree fun s => issue rs (b s) s := by
  intro s t h
  obtain ⟨hi, rfl⟩ := issue_next h
  refine ⟨rfl, rfl, rfl, fun l => ?_⟩
  rw [hb, issue_idle (s := s.withTurns l) rs (b s) hi]
  rfl

/-- Issuing what the multiplexer shows. -/
theorem EnvironmentFree.issueSelected (sel : MuxSelect) : EnvironmentFree (issueSelected sel) := by
  intro s t h
  obtain ⟨rs, b, hm, hi, rfl⟩ := issueSelected_next h
  refine ⟨rfl, rfl, rfl, fun l => ?_⟩
  have hm' : muxOutput sel (s.withTurns l) = some (rs, b) := by cases sel <;> exact hm
  simp only [Machine.issueSelected, hm', issue_idle (s := s.withTurns l) rs b hi]
  rfl

/-- Waiting for the transport. -/
theorem EnvironmentFree.whenIdle {f : State → Result} (hf : EnvironmentFree f) :
    EnvironmentFree fun s => whenIdle s (f s) :=
  .ite (c := fun s => s.ts = .idle) (fun _ _ => Iff.rfl) hf .unchanged

theorem EnvironmentFree.completeTransfer : EnvironmentFree fun s => .next (completeTransfer s) :=
  .iteUpdate (c := fun s => s.ts = .settle) (fun _ _ => Iff.rfl) .update .unchanged

theorem EnvironmentFree.startBackground : EnvironmentFree fun s => .next (startBackground s) :=
  .iteUpdate (c := fun s => s.hpc.bg = 0) (fun _ _ => Iff.rfl) .update .unchanged

theorem environmentFree_ctlDiv : EnvironmentFree (exec .ctlDiv) :=
  .ite (c := fun s => nextSample s = s.cfg.kDiv) (fun _ _ => Iff.rfl) .update .update

/-- A digit of the measured speed does not depend on the turns. -/
theorem measuredCell_withTurns (k : Nat) (s : State) (l : List Turn) :
    measuredCell k (s.withTurns l) = ((measuredCell k s).1, (measuredCell k s).2.withTurns l) := by
  by_cases h : s.measSpeed.toNat ≤ 9999
  · rw [measuredCell, measuredCell, if_pos h]
    exact if_pos h
  · rw [measuredCell, measuredCell, if_neg h]
    exact if_neg h

/-- The byte of a frame cell does not depend on the turns. -/
theorem formatCell_withTurns (i : Fin 32) (s : State) (l : List Turn) :
    formatCell i (s.withTurns l) = ((formatCell i s).1, (formatCell i s).2.withTurns l) := by
  unfold formatCell
  split
  · rfl
  · split
    · rfl
    · exact measuredCell_withTurns _ s l

theorem environmentFree_ctlFmt (i : BitVec 5) : EnvironmentFree (exec (.ctlFmt i)) := by
  refine .andThen (fun s t h => ?_) (.setStep .ctrl (formatSuccessor i))
  obtain ⟨hlt, rfl⟩ := memWrite_next h
  have hcell : (formatCell i.toFin s).2.cfg = s.cfg ∧ (formatCell i.toFin s).2.adc = s.adc ∧
      (formatCell i.toFin s).2.agenda = s.agenda := by
    rcases formatCell_snd i.toFin s with hs | hs <;> rw [hs] <;> exact ⟨rfl, rfl, rfl⟩
  obtain ⟨hcfg, hadc, hagenda⟩ := hcell
  refine ⟨hcfg, hadc, hagenda, fun l => ?_⟩
  rw [formatCell_withTurns]
  exact if_pos hlt

theorem environmentFree_iniTick : EnvironmentFree (exec .iniTick) := by
  refine .ite (c := fun s => s.initDone = true) (fun _ _ => Iff.rfl) (.setStep .fast 3)
    (.ite (c := fun s => s.initMs.toNat + 1 < 2 ^ 16) (fun _ _ => Iff.rfl) ?_ (.refused _))
  intro s t h
  dsimp only at h
  split at h
  all_goals
    next hm =>
    obtain rfl := Host.Outcome.next.inj h
    refine ⟨rfl, rfl, rfl, fun l => ?_⟩
    simp only [State.withTurns, hm]
    rfl

theorem environmentFree_rfrChar : EnvironmentFree (exec .rfrChar) := by
  intro s t h
  cases hb : memRead s s.cursor.val with
  | none => simp only [exec, execRfrChar, hb] at h; cases h
  | some b =>
    have hfree : EnvironmentFree fun s => Sys2Proof.Machine.andThen (issueSelected .rfrChar { s with tByte := b })
        fun u => .next (u.setStep .med 6) :=
      .andThen (.after (.issueSelected .rfrChar) .update)
        (.setStep .med 6)
    have hexec : ∀ u, memRead u u.cursor.val = some b → exec .rfrChar u =
        andThen (issueSelected .rfrChar { u with tByte := b }) fun u => .next (u.setStep .med 6) := fun u hu => by
      simp only [exec, execRfrChar, hu]
    obtain ⟨hcfg, hadc, hagenda, hany⟩ := hfree s t ((hexec s hb).symm.trans h)
    exact ⟨hcfg, hadc, hagenda, fun l => (hexec (s.withTurns l) hb).trans (hany l)⟩

theorem environmentFree_rfrCharw : EnvironmentFree (exec .rfrCharw) := by
  refine .whenIdle fun s t h => ?_
  split at h
  · next hlt =>
    obtain rfl := Host.Outcome.next.inj h
    exact ⟨rfl, rfl, rfl, fun l => dif_pos hlt⟩
  · cases h

/-- No operation changes the environment, or depends on the turns to come. -/
theorem environmentFree_exec (i : Instr) : EnvironmentFree (exec i) := by
  cases i
  case evPulse =>
    exact .iteUpdate (c := fun s => s.initDone = true) (fun _ _ => Iff.rfl) .update .unchanged
  case ctlFmt => exact environmentFree_ctlFmt _
  case iniTick => exact environmentFree_iniTick
  case rfrChar => exact environmentFree_rfrChar
  case rfrCharw => exact environmentFree_rfrCharw
  case ctlDiv => exact environmentFree_ctlDiv
  case evReady => exact .completeTransfer
  case trnDone => exact .completeTransfer
  case evStart => exact .startBackground
  case bgStart => exact .startBackground
  case iniCmd => exact .andThen (.issueSelected .iniCmd) (.setStep .fast 2)
  case rfrHome => exact .andThen (.issueSelected .rfrHome) (.setStep .med 2)
  case rfrLine2 => exact .andThen (.issueSelected .rfrLine2) (.setStep .med 4)
  case iniCmdw => exact .whenIdle .update
  case rfrHomew => exact .whenIdle .update
  case rfrLine2w => exact .whenIdle (.setStep _ _)
  case lcdFuncset => exact .issue false fun _ _ => rfl
  case lcdDispoff => exact .issue false fun _ _ => rfl
  case lcdClear => exact .issue false fun _ _ => rfl
  case lcdEntrymode => exact .issue false fun _ _ => rfl
  case lcdDispon => exact .issue false fun _ _ => rfl
  case lcdLine2 => exact .issue false fun _ _ => rfl
  case lcdHome => exact .issue false fun _ _ => rfl
  case lcdData => exact .issue true fun _ _ => rfl
  all_goals exact .update

end Sys2Proof.Machine
end

section
/-! Sequences that the block performs: bursts of its own operations, each burst started by an event. One description of
such a sequence says that it answers, that it follows the state, and that steps of the block reach its end. -/

namespace Sys2Proof.Machine

/-! ### The block's own operations -/

/-- The operation that the block takes when it runs on its own: the machine's visible step, else the transport's
phase (assumption log 6). -/
def TakenAlone (i : Instr) (s : State) : Prop :=
  s.rstActive = false ∧
  ((fetchMachine s = .ok i ∧ enabled i s = true ∧ i ≠ .bgIdle) ∨
   (machineReady s = false ∧ fetchTransport s = .ok i ∧ enabled i s = true))

theorem TakenAlone.selected {i : Instr} {s : State} (h : TakenAlone i s) : Selected i s := by
  obtain ⟨hr, ⟨hf, he, -⟩ | ⟨-, hf, he⟩⟩ := h
  · exact .inr ⟨hr, .inl hf, he⟩
  · exact .inr ⟨hr, .inr hf, he⟩

theorem TakenAlone.autoTurn {i : Instr} {s : State} (h : TakenAlone i s) : autoTurn s = exec i s := by
  obtain ⟨hr, ⟨hf, he, hi⟩ | ⟨hm, hf, he⟩⟩ := h
  · have hready : machineReady s = true := by simp [machineReady, hr, hf, he, hi]
    rw [Machine.autoTurn, if_pos hready, machineTurn_eq_exec hr hf he]
  · have hready : transportReady s = true := by simp [transportReady, hr, hf, he]
    rw [Machine.autoTurn, hm, if_neg Bool.false_ne_true, if_pos hready, transportTurn_eq_exec hr hf he]

theorem TakenAlone.not_atRest {i : Instr} {s : State} (h : TakenAlone i s) : atRest s = false := by
  obtain ⟨hr, ⟨hf, he, hi⟩ | ⟨hm, hf, he⟩⟩ := h
  · simp [atRest, machineReady, hr, hf, he, hi]
  · simp [atRest, hm, transportReady, hr, hf, he]

/-- Each operation of a list is the one the block takes on its own when its turn comes. -/
def SelfRun : List Instr → State → Prop
  | [], _ => True
  | i :: rest, s => TakenAlone i s ∧ ∀ t, exec i s = .next t → SelfRun rest t

theorem SelfRun.cons {i : Instr} {l : List Instr} {s t : State} (hi : TakenAlone i s) (hx : exec i s = .next t)
    (hl : SelfRun l t) : SelfRun (i :: l) s :=
  ⟨hi, fun u hu => by rw [hx] at hu; cases hu; exact hl⟩

theorem SelfRun.append {l m : List Instr} {s t : State} (hl : SelfRun l s) (hx : execAll l s = .next t)
    (hm : SelfRun m t) : SelfRun (l ++ m) s := by
  induction l generalizing s with
  | nil => cases hx; exact hm
  | cons i l ih =>
    obtain ⟨u, hu, hx⟩ := andThen_next_iff.mp hx
    obtain ⟨hi, hrest⟩ := hl
    exact .cons hi hu (ih (hrest u hu) hx)

theorem execAll_cons_next {i : Instr} {l : List Instr} {s t u : State} (hi : exec i s = .next t)
    (hl : execAll l t = .next u) : execAll (i :: l) s = .next u :=
  andThen_next_iff.mpr ⟨t, hi, hl⟩

theorem execAll_append_next {l m : List Instr} {s t u : State} (hl : execAll l s = .next t)
    (hm : execAll m t = .next u) : execAll (l ++ m) s = .next u := by
  rw [execAll_append, hl, andThen_next, hm]

theorem SelfRun.follows {l : List Instr} {s : State} (h : SelfRun l s) : Follows l s := by
  induction l generalizing s with
  | nil => trivial
  | cons i l ih =>
    obtain ⟨hi, hrest⟩ := h
    exact ⟨hi.selected, fun t ht => ih (hrest t ht)⟩

/-! ### Steps that reach a state -/

/-- Some number of steps leads from `s` to `t`. -/
def Reaches (s t : State) : Prop := ∃ k, Host.Core.run Sys2Proof.core k s = .next t

theorem Reaches.refl (s : State) : Reaches s s := ⟨0, rfl⟩

theorem Reaches.trans {s t u : State} (h : Reaches s t) (h' : Reaches t u) : Reaches s u := by
  obtain ⟨k, hk⟩ := h
  obtain ⟨n, hn⟩ := h'
  exact ⟨k + n, (run_add Sys2Proof.core k n s t hk).trans hn⟩

theorem Reaches.of_step {s t : State} (h : step s = .next t) : Reaches s t := by
  refine ⟨1, ?_⟩
  have hcore : Sys2Proof.core.step s = .next t := h
  simp only [Host.Core.run, hcore]

theorem step_run {s : State} {rest : List Turn} (hv : s.cfg.valid = true) (ha : s.agenda = .run :: rest) :
    step s = if atRest s then .next (s.withTurns rest) else autoTurn s := by
  rw [step_of_valid hv, takeTurn, ha]
  rfl

/-- A turn that runs the block takes its own operations one after another. -/
theorem SelfRun.reaches {l : List Instr} {s t : State} {rest : List Turn} (hv : s.cfg.valid = true)
    (ha : s.agenda = .run :: rest) (hl : SelfRun l s) (hx : execAll l s = .next t) : Reaches s t := by
  induction l generalizing s with
  | nil => cases hx; exact .refl _
  | cons i l ih =>
    obtain ⟨u, hu, hx⟩ := andThen_next_iff.mp hx
    obtain ⟨hi, hrest⟩ := hl
    have henv := environmentFree_exec i s u hu
    have hstep : step s = .next u := by
      rw [step_run hv ha, hi.not_atRest, if_neg Bool.false_ne_true, hi.autoTurn, hu]
    exact (Reaches.of_step hstep).trans (ih (henv.cfg ▸ hv) (henv.agenda ▸ ha) (hrest u hu) hx)

/-- A block at rest ends the turn that runs it. -/
theorem reaches_of_atRest {s : State} {rest : List Turn} (hv : s.cfg.valid = true) (ha : s.agenda = .run :: rest)
    (hr : atRest s = true) : Reaches s (s.withTurns rest) :=
  .of_step (by rw [step_run hv ha, if_pos hr])

/-- The vector that is one event (30_encoding.md rule R81). -/
def eventVector (e : Instr) : BitVec 7 :=
  match encode Params.refEx e with
  | .ev w => w
  | _ => 0

theorem releaseReset_of_released {s : State} (h : s.rstActive = false) : releaseReset s = s := by
  cases s
  cases h
  rfl

/-- An event other than a reset is one step. -/
theorem reaches_of_event {e : Instr} {s t : State} {rest : List Turn} (hv : s.cfg.valid = true)
    (ha : s.agenda = .event (eventVector e) :: rest) (he : decodeEv (eventVector e) = .ok e) (hne : e ≠ .evRst)
    (hr : s.rstActive = false) (hx : exec e s = .next t) : Reaches s (t.withTurns rest) := by
  have hreleased : releaseReset (s.withTurns rest) = s.withTurns rest := releaseReset_of_released hr
  refine .of_step ((step_event hv ha).trans ((eventTurn_of_event (s.withTurns rest) he hne).trans ?_))
  rw [hreleased]
  exact (environmentFree_exec e s t hx).anyTurns rest

/-! ### Services: an event, and the burst of own operations that it starts -/

/-- The operations of a list of services. -/
def servedOps (l : List (Instr × List Instr)) : List Instr := l.flatMap fun p => p.1 :: p.2

/-- The turns that present a list of services, the block running after each event (30_encoding.md rule R102). -/
def servedTurns (l : List (Instr × List Instr)) : List Turn :=
  l.flatMap fun p => [.event (eventVector p.1), .run]

/-- The services lead from `s` to `t`; if `alone`, each burst is what the block does on its own, and the block is at rest
when the next event comes. -/
inductive Serves (alone : Prop) : List (Instr × List Instr) → State → State → Prop where
  | done (s : State) : Serves alone [] s s
  | serve {e : Instr} {burst : List Instr} {l : List (Instr × List Instr)} {s u v t : State}
      (event : decodeEv (eventVector e) = .ok e) (noReset : e ≠ .evRst)
      (atEvent : exec e s = .next u) (atBurst : execAll burst u = .next v) (self : alone → SelfRun burst u)
      (rest : alone → l ≠ [] → v.rstActive = false ∧ atRest v = true) (more : Serves alone l v t) :
      Serves alone ((e, burst) :: l) s t

theorem Serves.execAll {alone : Prop} {l : List (Instr × List Instr)} {s t : State} (h : Serves alone l s t) :
    execAll (servedOps l) s = .next t := by
  induction h with
  | done s => rfl
  | serve event noReset atEvent atBurst self rest more ih =>
    exact execAll_cons_next atEvent (execAll_append_next atBurst ih)

theorem Serves.follows {alone : Prop} {l : List (Instr × List Instr)} {s t : State} (ha : alone)
    (h : Serves alone l s t) : Follows (servedOps l) s := by
  induction h with
  | done s => trivial
  | serve event noReset atEvent atBurst self rest more ih =>
    refine ⟨.inl ⟨_, event⟩, fun u hu => ?_⟩
    rw [atEvent] at hu
    cases hu
    refine (follows_append _ _ _).mpr ⟨(self ha).follows, fun v hv => ?_⟩
    rw [atBurst] at hv
    cases hv
    exact ih

theorem environmentFree_execAll (l : List Instr) : EnvironmentFree (execAll l) := by
  induction l with
  | nil => exact .unchanged
  | cons i l ih => exact .andThen (environmentFree_exec i) ih

/-- What the block does on its own does not depend on the turns to come. -/
theorem SelfRun.withTurns {l : List Instr} {s : State} (h : SelfRun l s) (m : List Turn) :
    SelfRun l (s.withTurns m) := by
  induction l generalizing s m with
  | nil => trivial
  | cons i l ih =>
    obtain ⟨hi, hrest⟩ := h
    refine ⟨hi, fun t ht => ?_⟩
    have hs : exec i s = .next (t.withTurns s.agenda) := (environmentFree_exec i _ t ht).anyTurns s.agenda
    exact ih (hrest _ hs) t.agenda

/-- Presented as turns, the services lead to the state in which the last burst has ended. -/
theorem Serves.reaches {alone : Prop} {l : List (Instr × List Instr)} {s t : State} (ha : alone)
    (h : Serves alone l s t) (hv : s.cfg.valid = true) (hr : s.rstActive = false) (hl : l ≠ []) (rest : List Turn) :
    Reaches (s.withTurns (servedTurns l ++ rest)) (t.withTurns (.run :: rest)) := by
  induction h with
  | done s => exact absurd rfl hl
  | @serve e burst l s u v t event noReset atEvent atBurst self atEnd more ih =>
    have hu := environmentFree_exec e s u atEvent
    have hw := environmentFree_execAll burst u v atBurst
    have huv : u.cfg.valid = true := hu.cfg ▸ hv
    have hvv : v.cfg.valid = true := hw.cfg ▸ huv
    have tick : Reaches (s.withTurns (servedTurns ((e, burst) :: l) ++ rest))
        (u.withTurns (.run :: (servedTurns l ++ rest))) :=
      reaches_of_event (s := s.withTurns (servedTurns ((e, burst) :: l) ++ rest))
        (t := u.withTurns (servedTurns ((e, burst) :: l) ++ rest)) hv rfl event noReset hr (hu.anyTurns _)
    have run : Reaches (u.withTurns (.run :: (servedTurns l ++ rest)))
        (v.withTurns (.run :: (servedTurns l ++ rest))) :=
      ((self ha).withTurns _).reaches huv rfl (hw.anyTurns _)
    refine (tick.trans run).trans ?_
    by_cases hnil : l = []
    · subst hnil
      cases more
      exact .refl _
    · obtain ⟨hrv, hrest⟩ := atEnd ha hnil
      exact (reaches_of_atRest (s := v.withTurns (.run :: (servedTurns l ++ rest))) hvv rfl hrest).trans
        (ih hvv hrv hnil)

end Sys2Proof.Machine
end

section
/-! Transactions: an operation issues a word, the transport sends it, and the handler waits for `EV.READY`
(42_transport.md rule R154). -/

namespace Sys2Proof.Machine

/-- The running context takes the operation of its step. -/
theorem Runs.takenAlone {c : Context} {n : BitVec 6} {s : State} {i : Instr} (h : Runs c n s)
    (hd : decodeSt (c.code ++ n) = .ok i) (he : enabled i s = true) (hi : i ≠ .bgIdle) : TakenAlone i s :=
  ⟨h.released, .inl ⟨h.fetch.trans hd, he, hi⟩⟩

/-- A dispatch that is wanted is taken. -/
theorem takenAlone_dispatch {s : State} {src : Source} (hr : s.rstActive = false) (h : dispatchRule s = some src) :
    TakenAlone (dispatchOf src) s :=
  ⟨hr, .inl ⟨fetchMachine_of_dispatch h, enabled_dispatchOf src s, by cases src <;> decide⟩⟩

/-! ### Entering a handler by a tick -/

/-- A tick of `src` has been served as far as step `n` of its handler. -/
def State.entered (s : State) (src : Source) (n : BitVec 6) : State :=
  { s with
    pend := s.pend.set src false
    act := s.act.set src true
    ovr := s.ovr.set src (s.pend.get src || s.ovr.get src)
    hpc := s.hpc.set src.context n }

theorem enterHandler_latchTick (src : Source) (s : State) : enterHandler src (latchTick src s) = s.entered src 0 := by
  rw [enterHandler_eq, latchTick_eq]
  cases src <;> rfl

theorem exec_dispatch_ticked (src : Source) (s : State) :
    exec (dispatchOf src) (latchTick src s) = .next (s.entered src 0) := by
  rw [exec_dispatchOf, enterHandler_latchTick]

theorem entered_setStep (s : State) (src : Source) (m n : BitVec 6) :
    (s.entered src m).setStep src.context n = s.entered src n := by
  cases src <;> rfl

/-- A context that waits for the transport leaves the machine no step. -/
theorem Runs.not_machineReady {c : Context} {n : BitVec 6} {s : State} {w : Instr} (h : Runs c n s)
    (hd : decodeSt (c.code ++ n) = .ok w) (hw : w ∈ waitOps) (hb : s.ts ≠ .idle) : machineReady s = false := by
  simp [machineReady, h.fetch.trans hd, enabled_of_wait hw, hb]

/-! ### The states of a transaction -/

/-- The word `{rs, 0, b}` has been issued. -/
def State.issued (s : State) (rs : Bool) (b : Byte) : State :=
  { s with tw := BitVec.ofBool rs ++ 0#1 ++ b, ts := .setup }

/-- The panel has latched the word. -/
def State.latched (s : State) (rs : Bool) (b : Byte) : State :=
  { s with tw := BitVec.ofBool rs ++ 0#1 ++ b, ts := .settle, lcdTrace := s.lcdTrace ++ [(rs, b)] }

/-- The transaction is complete. -/
def State.sent (s : State) (rs : Bool) (b : Byte) : State :=
  { s with tw := BitVec.ofBool rs ++ 0#1 ++ b, ts := .idle, lcdTrace := s.lcdTrace ++ [(rs, b)] }

theorem issue_eq_issued {s : State} (h : s.ts = .idle) (rs : Bool) (b : Byte) :
    issue rs b s = .next (s.issued rs b) := if_pos h

/-- An operation that issues what the multiplexer shows and goes on to step `n`. -/
theorem issueStep_eq {s : State} {sel : MuxSelect} {rs : Bool} {b : Byte} (h : s.ts = .idle)
    (hm : muxOutput sel s = some (rs, b)) (c : Context) (n : BitVec 6) :
    andThen (issueSelected sel s) (fun t => .next (t.setStep c n)) = .next ((s.issued rs b).setStep c n) := by
  simp only [issueSelected, hm, issue_eq_issued h, andThen_next]

/-- The two halves of an issued word (30_encoding.md rule R90). -/
theorem issuedWord_halves (rs : Bool) (b : Byte) :
    (BitVec.ofBool rs ++ 0#1 ++ b)[9] = rs ∧ (BitVec.ofBool rs ++ 0#1 ++ b).extractLsb' 0 8 = b := by
  constructor
  · rw [BitVec.getElem_append]
    cases rs <;> rfl
  · exact BitVec.extractLsb'_append_eq_right

theorem execAll_phases (s : State) (rs : Bool) (b : Byte) (c : Context) (n : BitVec 6) :
    execAll [.trnEhi, .trnElo] ((s.issued rs b).setStep c n) = .next ((s.latched rs b).setStep c n) := by
  obtain ⟨hrs, hb⟩ := issuedWord_halves rs b
  simp only [execAll, exec, execTrnEhi, execTrnElo, andThen_next, State.issued, State.latched, State.setStep, hrs, hb]

theorem exec_evReady_latched (s : State) (rs : Bool) (b : Byte) (c : Context) (n : BitVec 6) :
    exec .evReady ((s.latched rs b).setStep c n) = .next ((s.sent rs b).setStep c n) := rfl

/-! ### An issuing operation and the wait that follows it -/

/-- Step `n` of context `c` issues by operation `i` and goes on to the wait operation `w` at step `m`. -/
structure IssuesAt (c : Context) (n m : BitVec 6) (i w : Instr) : Prop where
  issue : decodeSt (c.code ++ n) = .ok i
  wait : decodeSt (c.code ++ m) = .ok w
  isWait : w ∈ waitOps
  always : ∀ s, enabled i s = true
  visible : i ≠ .bgIdle

theorem issuesAt_iniCmd : IssuesAt .fast 1 2 .iniCmd .iniCmdw := ⟨rfl, rfl, by decide, fun _ => rfl, by decide⟩
theorem issuesAt_rfrHome : IssuesAt .med 1 2 .rfrHome .rfrHomew := ⟨rfl, rfl, by decide, fun _ => rfl, by decide⟩
theorem issuesAt_rfrLine2 : IssuesAt .med 3 4 .rfrLine2 .rfrLine2w := ⟨rfl, rfl, by decide, fun _ => rfl, by decide⟩
theorem issuesAt_rfrChar : IssuesAt .med 5 6 .rfrChar .rfrCharw := ⟨rfl, rfl, by decide, fun _ => rfl, by decide⟩

section Issue
variable {c : Context} {n m : BitVec 6} {i w : Instr} {s x : State} {rs : Bool} {b : Byte}

theorem execAll_issue (hx : exec i s = .next ((x.issued rs b).setStep c m)) :
    execAll [i, .trnEhi, .trnElo] s = .next ((x.latched rs b).setStep c m) := by
  rw [execAll, hx, andThen_next, execAll_phases]

/-- The block on its own issues the word and sends it while the handler waits. -/
theorem IssuesAt.selfRun (h : IssuesAt c n m i w) (hs : Runs c n s) (hw : Runs c m (x.setStep c m))
    (hx : exec i s = .next ((x.issued rs b).setStep c m)) : SelfRun [i, .trnEhi, .trnElo] s := by
  have waits : ∀ u : State, Runs c m u → u.ts ≠ .idle → machineReady u = false :=
    fun u hu hb => hu.not_machineReady h.wait h.isWait hb
  have setup : Runs c m ((x.issued rs b).setStep c m) := ⟨hw.released, hw.noDispatch, hw.running, hw.atStep⟩
  have ehi : Runs c m { (x.issued rs b).setStep c m with ts := .ehi } :=
    ⟨hw.released, hw.noDispatch, hw.running, hw.atStep⟩
  exact .cons (hs.takenAlone h.issue (h.always s) h.visible) hx
    (.cons ⟨hw.released, .inr ⟨waits _ setup (nofun), rfl, rfl⟩⟩ rfl
      (.cons ⟨hw.released, .inr ⟨waits _ ehi (nofun), rfl, rfl⟩⟩ rfl trivial))

/-- With the word latched the block is at rest until `EV.READY` (30_encoding.md rule R102). -/
theorem IssuesAt.atRest (h : IssuesAt c n m i w) (hw : Runs c m (x.setStep c m)) :
    ((x.latched rs b).setStep c m).rstActive = false ∧ atRest ((x.latched rs b).setStep c m) = true := by
  have settle : Runs c m ((x.latched rs b).setStep c m) := ⟨hw.released, hw.noDispatch, hw.running, hw.atStep⟩
  have transport : transportReady ((x.latched rs b).setStep c m) = false := by
    simp [transportReady, fetchTransport, State.latched, Phase.code, decodeTp, enabled]
  exact ⟨hw.released, (atRest_iff _).mpr ⟨settle.not_machineReady h.wait h.isWait (nofun), transport⟩⟩

/-- A service whose burst ends by sending a word. -/
theorem Serves.send {alone : Prop} {e : Instr} {pre : List Instr} {l : List (Instr × List Instr)} {s u y t : State}
    (h : IssuesAt c n m i w) (event : decodeEv (eventVector e) = .ok e) (noReset : e ≠ .evRst)
    (atEvent : exec e s = .next u) (atPre : Machine.execAll pre u = .next y)
    (hx : exec i y = .next ((x.issued rs b).setStep c m))
    (self : alone → SelfRun pre u ∧ Runs c n y ∧ Runs c m (x.setStep c m))
    (more : Serves alone l ((x.latched rs b).setStep c m) t) :
    Serves alone ((e, pre ++ [i, .trnEhi, .trnElo]) :: l) s t := by
  refine .serve event noReset atEvent (execAll_append_next atPre (execAll_issue hx)) (fun ha => ?_) (fun ha _ => ?_)
    more
  · obtain ⟨hpre, hn, hm⟩ := self ha
    exact hpre.append atPre (h.selfRun hn hm hx)
  · obtain ⟨-, -, hm⟩ := self ha
    exact h.atRest hm

/-- The service that ends an activation: `EV.READY`, the wait operation, and the return from step `k`. -/
theorem IssuesAt.finish {alone : Prop} {k : BitVec 6} {r : Instr} {f t : State} (h : IssuesAt c n m i w)
    (hr : decodeSt (c.code ++ k) = .ok r) (hre : ∀ s, enabled r s = true) (hrv : r ≠ .bgIdle)
    (hx : exec w ((x.sent rs b).setStep c m) = .next (f.setStep c k)) (ht : exec r (f.setStep c k) = .next t)
    (self : alone → Runs c m (x.setStep c m) ∧ Runs c k (f.setStep c k)) :
    Serves alone [(.evReady, [w, r])] ((x.latched rs b).setStep c m) t := by
  have atBurst : Machine.execAll [w, r] ((x.sent rs b).setStep c m) = .next t :=
    execAll_cons_next hx ((execAll_singleton r _).trans ht)
  refine .serve rfl (by decide) (exec_evReady_latched x rs b c m) atBurst (fun ha => ?_) (fun _ hl => absurd rfl hl)
    (.done t)
  obtain ⟨hw, hk⟩ := self ha
  have idle : Runs c m ((x.sent rs b).setStep c m) := ⟨hw.released, hw.noDispatch, hw.running, hw.atStep⟩
  have enabledWait : enabled w ((x.sent rs b).setStep c m) = true := by
    rw [enabled_of_wait h.isWait]
    rfl
  have visible : w ≠ .bgIdle := fun e => absurd (e ▸ h.isWait) (by decide)
  exact .cons (idle.takenAlone h.wait enabledWait visible) hx (.cons (hk.takenAlone hr (hre _) hrv) ht trivial)

end Issue

end Sys2Proof.Machine
end

section
/-! O39 and O40: the refresh cycle, one served medium tick at a time. A tick is three kinds of service, by the cursor:
the home command, the line-2 command with a character, or a character; each is described once, for both statements. -/

namespace Sys2Proof.Machine

/-- Interrupts are enabled, and nothing stands in the way of the `MED` handler. -/
structure Undisturbed (s : State) : Prop where
  released : s.rstActive = false
  enabled : s.ien = true
  noFastTick : s.pend.fast = false
  noFast : s.act.fast = false
  noMed : s.act.med = false

/-- An undisturbed medium tick is dispatched. -/
theorem Undisturbed.dispatches_med {s : State} (h : Undisturbed s) : dispatchRule (latchTick .med s) = some .med := by
  have hbelow : (latchTick .med s).running.prio < Source.med.context.prio := by
    have hmed : (latchTick .med s).act.med = false := by simp [latchTick, h.noMed]
    have hfast : (latchTick .med s).act.fast = false := by simp [latchTick, h.noFast]
    unfold State.running
    rw [hmed, hfast]
    cases (latchTick .med s).act.ctrl <;> decide
  have hpend : (latchTick .med s).pend.fast = false := by simp [latchTick, h.noFastTick]
  have hmed : (latchTick .med s).pend.med = true := by simp [latchTick]
  have hien : (latchTick .med s).ien = true := by simp [latchTick, h.enabled]
  simp [dispatchRule, wantsDispatch, SourceBits.get, hpend, hien, hmed, hbelow]

/-! ### The operations of the refresh, from an idle transport -/

section Operations
variable {s : State}

theorem exec_rfrHome (h : s.ts = .idle) : exec .rfrHome s = .next ((s.issued false s.cfg.cmdHome).setStep .med 2) :=
  issueStep_eq h rfl .med 2

theorem exec_rfrLine2 (h : s.ts = .idle) :
    exec .rfrLine2 s = .next ((s.issued false s.cfg.cmdLine2).setStep .med 4) :=
  issueStep_eq h rfl .med 4

/-- The state with another byte read. -/
def State.withByte (s : State) (b : Byte) : State := { s with tByte := b }

/-- The state with another cursor. -/
def State.withCursor (s : State) (c : Fin 33) : State := { s with cursor := c }

/-- The byte at the cursor. -/
def State.cursorByte (s : State) : Byte := Memory.cell s.cfg.fbReset s.fb s.cursor.val

theorem memRead_cursor (h : s.cursor.val < 32) : memRead s s.cursor.val = some s.cursorByte := memRead_of_lt h

theorem exec_rfrChar (h : s.ts = .idle) (hc : s.cursor.val < 32) :
    exec .rfrChar s =
      .next (((s.withByte s.cursorByte).issued true s.cursorByte).setStep .med 6) := by
  have hmux : muxOutput .rfrChar (s.withByte s.cursorByte) = some (true, s.cursorByte) :=
    congrArg (Option.map _) (memRead_cursor hc)
  simp only [exec, execRfrChar, memRead_cursor hc]
  exact issueStep_eq (s := s.withByte s.cursorByte) h hmux .med 6

theorem exec_rfrHomew (h : s.ts = .idle) : exec .rfrHomew s = .next ((s.withCursor 0).setStep .med 7) :=
  whenIdle_of_idle h _

theorem exec_rfrLine2w (h : s.ts = .idle) : exec .rfrLine2w s = .next (s.setStep .med 5) :=
  whenIdle_of_idle h _

theorem exec_rfrCharw (h : s.ts = .idle) (hc : s.cursor.val < 32) :
    exec .rfrCharw s = .next ((s.withCursor ⟨s.cursor.val + 1, by omega⟩).setStep .med 7) :=
  (whenIdle_of_idle h _).trans (dif_pos _)

end Operations

/-! ### Inside the handler -/

/-- What a served medium tick has done to `s` while its handler is active in `t`, apart from the cursor, the transport and
the steps of the handler. -/
structure Refreshing (s t : State) : Prop where
  cfg : t.cfg = s.cfg
  fb : t.fb = s.fb
  initDone : t.initDone = s.initDone
  released : t.rstActive = s.rstActive
  ien : t.ien = s.ien
  background : t.hpc.bg = s.hpc.bg
  pend : t.pend = s.pend.set .med false
  act : t.act = s.act.set .med true
  ovr : t.ovr = s.ovr.set .med (s.pend.med || s.ovr.med)

section Refreshing
variable {s t : State}

theorem Refreshing.setStep (h : Refreshing s t) (n : BitVec 6) : Refreshing s (t.setStep .med n) :=
  ⟨h.cfg, h.fb, h.initDone, h.released, h.ien, h.background, h.pend, h.act, h.ovr⟩

theorem Refreshing.sent (h : Refreshing s t) (rs : Bool) (b : Byte) : Refreshing s (t.sent rs b) :=
  ⟨h.cfg, h.fb, h.initDone, h.released, h.ien, h.background, h.pend, h.act, h.ovr⟩

theorem Refreshing.withByte (h : Refreshing s t) (b : Byte) : Refreshing s (t.withByte b) :=
  ⟨h.cfg, h.fb, h.initDone, h.released, h.ien, h.background, h.pend, h.act, h.ovr⟩

theorem Refreshing.withCursor (h : Refreshing s t) (c : Fin 33) : Refreshing s (t.withCursor c) :=
  ⟨h.cfg, h.fb, h.initDone, h.released, h.ien, h.background, h.pend, h.act, h.ovr⟩

/-- Undisturbed, the handler runs. -/
theorem Refreshing.runs (h : Refreshing s t) (hs : Undisturbed s) {n : BitVec 6} (hn : t.hpc.med = n) :
    Runs .med n t :=
  runs_med (h.released.trans hs.released) (by rw [h.act]; exact hs.noFast) (by rw [h.pend]; exact hs.noFastTick)
    (by rw [h.act]; rfl) hn

end Refreshing

theorem refreshing_entered (s : State) (n : BitVec 6) : Refreshing s (s.entered .med n) :=
  ⟨rfl, rfl, rfl, rfl, rfl, rfl, rfl, rfl, rfl⟩

theorem exec_rfrSel_entered {s : State} {n : BitVec 6} (h : refreshBranch s = n) :
    exec .rfrSel (s.entered .med 0) = .next (s.entered .med n) := by
  subst h
  exact congrArg Host.Outcome.next (entered_setStep s .med 0 _)

theorem execAll_medEntry {s : State} {n : BitVec 6} (h : refreshBranch s = n) :
    execAll [.dispatchMed, .rfrSel] (latchTick .med s) = .next (s.entered .med n) :=
  execAll_cons_next (exec_dispatch_ticked .med s) ((execAll_singleton _ _).trans (exec_rfrSel_entered h))

theorem Undisturbed.selfRun_medEntry {s : State} (h : Undisturbed s) :
    SelfRun [.dispatchMed, .rfrSel] (latchTick .med s) := by
  have dispatch : TakenAlone .dispatchMed (latchTick .med s) :=
    takenAlone_dispatch (src := .med) (by simp [latchTick, h.released]) h.dispatches_med
  have select : TakenAlone .rfrSel (s.entered .med 0) :=
    ((refreshing_entered s 0).runs h (n := 0) rfl).takenAlone rfl rfl (by decide)
  exact .cons dispatch (exec_dispatch_ticked .med s) (.cons select (exec_rfrSel_entered rfl) trivial)

/-! ### One served medium tick -/

/-- The services of one medium tick at cursor `c`. -/
def refreshServices (c : Nat) : List (Instr × List Instr) :=
  if c = 32 then
    [(.evTickM, [.dispatchMed, .rfrSel, .rfrHome, .trnEhi, .trnElo]), (.evReady, [.rfrHomew, .retMed])]
  else if c = 16 then
    [(.evTickM, [.dispatchMed, .rfrSel, .rfrLine2, .trnEhi, .trnElo]),
     (.evReady, [.rfrLine2w, .rfrChar, .trnEhi, .trnElo]), (.evReady, [.rfrCharw, .retMed])]
  else
    [(.evTickM, [.dispatchMed, .rfrSel, .rfrChar, .trnEhi, .trnElo]), (.evReady, [.rfrCharw, .retMed])]

theorem servedOps_refreshServices (c : Nat) : servedOps (refreshServices c) = refreshActivation c := by
  unfold refreshServices refreshActivation
  split_ifs <;> rfl

theorem servedTurns_refreshServices (c : Nat) : servedTurns (refreshServices c) = refreshTurns c := by
  by_cases h32 : c = 32
  · subst h32
    rfl
  · by_cases h16 : c = 16
    · subst h16
      rfl
    · rw [refreshServices, if_neg h32, if_neg h16, refreshTurns, if_neg h16]
      rfl

/-- The handler has returned: what one served medium tick does to `s`, sending `words`. -/
structure Refreshed (words : List (Bool × Byte)) (c : Nat) (s t : State) : Prop where
  handler : ∃ f, Refreshing s f ∧ t = leaveHandler .med f
  idle : t.ts = .idle
  cursor : t.cursor.val = c
  words : t.lcdTrace = s.lcdTrace ++ words

/-- A burst that ends at `RFR.CHAR` is followed by the character, the wait for it, and the return. -/
theorem Refreshing.serves_char {s r u y : State} {e : Instr} {pre : List Instr} {words : List (Bool × Byte)}
    (h : Refreshing s y) (hn : y.hpc.med = 5) (hi : y.ts = .idle) (hc : y.cursor.val < 32)
    (hwords : y.lcdTrace = s.lcdTrace ++ words) (event : decodeEv (eventVector e) = .ok e) (noReset : e ≠ .evRst)
    (atEvent : exec e r = .next u) (atPre : execAll pre u = .next y) (self : Undisturbed s → SelfRun pre u) :
    ∃ t, Serves (Undisturbed s) [(e, pre ++ [.rfrChar, .trnEhi, .trnElo]), (.evReady, [.rfrCharw, .retMed])] r t ∧
      Refreshed (words ++ [(true, y.cursorByte)]) (y.cursor.val + 1) s t := by
  have hread := (h.withByte y.cursorByte).setStep 6
  have hmoved := ((((h.withByte y.cursorByte).sent true y.cursorByte).setStep 6).withCursor
    ⟨y.cursor.val + 1, by omega⟩).setStep 7
  have hwait := exec_rfrCharw (s := ((y.withByte y.cursorByte).sent true y.cursorByte).setStep .med 6) rfl hc
  refine ⟨_, .send issuesAt_rfrChar event noReset atEvent atPre (exec_rfrChar hi hc)
    (fun hs => ⟨self hs, h.runs hs hn, hread.runs hs rfl⟩)
    (issuesAt_rfrChar.finish rfl (fun _ => rfl) (by decide) hwait rfl
      fun hs => ⟨hread.runs hs rfl, hmoved.runs hs rfl⟩),
    ⟨_, hmoved, rfl⟩, rfl, rfl, ?_⟩
  calc y.lcdTrace ++ [(true, y.cursorByte)]
    _ = s.lcdTrace ++ (words ++ [(true, y.cursorByte)]) := by rw [hwords, List.append_assoc]

section Served
variable {s : State}

/-- At the end of the frame the home command is sent. -/
theorem serves_home (hd : s.initDone = true) (hi : s.ts = .idle) (hc : s.cursor.val = 32) :
    ∃ t, Serves (Undisturbed s) [(.evTickM, [.dispatchMed, .rfrSel, .rfrHome, .trnEhi, .trnElo]),
        (.evReady, [.rfrHomew, .retMed])] s t ∧ Refreshed [(false, s.cfg.cmdHome)] 0 s t := by
  have hbranch : refreshBranch s = 1 := by simp [refreshBranch, hd, hc]
  have hentered := refreshing_entered s 1
  have hwaiting := hentered.setStep 2
  have hmoved := (((hentered.sent false s.cfg.cmdHome).setStep 2).withCursor 0).setStep 7
  have hissue : exec .rfrHome (s.entered .med 1) = _ := exec_rfrHome hi
  have hwait := exec_rfrHomew (s := ((s.entered .med 1).sent false s.cfg.cmdHome).setStep .med 2) rfl
  exact ⟨_, .send (pre := [.dispatchMed, .rfrSel]) issuesAt_rfrHome rfl (by decide) rfl (execAll_medEntry hbranch)
    hissue (fun hs => ⟨hs.selfRun_medEntry, hentered.runs hs rfl, hwaiting.runs hs rfl⟩)
    (issuesAt_rfrHome.finish rfl (fun _ => rfl) (by decide) hwait rfl
      fun hs => ⟨hwaiting.runs hs rfl, hmoved.runs hs rfl⟩),
    ⟨_, hmoved, rfl⟩, rfl, rfl, rfl⟩

/-- In the middle of a line the character is sent. -/
theorem serves_character (hd : s.initDone = true) (hi : s.ts = .idle) (hc : s.cursor.val < 32)
    (h16 : s.cursor.val ≠ 16) :
    ∃ t, Serves (Undisturbed s) [(.evTickM, [.dispatchMed, .rfrSel, .rfrChar, .trnEhi, .trnElo]),
        (.evReady, [.rfrCharw, .retMed])] s t ∧ Refreshed [(true, s.cursorByte)] (s.cursor.val + 1) s t := by
  have hbranch : refreshBranch s = 5 := by simp [refreshBranch, hd, h16, Nat.ne_of_lt hc]
  exact (refreshing_entered s 5).serves_char (pre := [.dispatchMed, .rfrSel]) (words := []) rfl hi hc
    (List.append_nil _).symm rfl (by decide) rfl (execAll_medEntry hbranch) fun hs => hs.selfRun_medEntry

/-- At the start of the second line the line-2 command is sent before the character. -/
theorem serves_secondLine (hd : s.initDone = true) (hi : s.ts = .idle) (hc : s.cursor.val = 16) :
    ∃ t, Serves (Undisturbed s) [(.evTickM, [.dispatchMed, .rfrSel, .rfrLine2, .trnEhi, .trnElo]),
        (.evReady, [.rfrLine2w, .rfrChar, .trnEhi, .trnElo]), (.evReady, [.rfrCharw, .retMed])] s t ∧
      Refreshed [(false, s.cfg.cmdLine2), (true, s.cursorByte)] (s.cursor.val + 1) s t := by
  have hbranch : refreshBranch s = 3 := by simp [refreshBranch, hd, hc]
  have hentered := refreshing_entered s 3
  have hwaiting := hentered.setStep 4
  have hsent := (hentered.sent false s.cfg.cmdLine2).setStep 4
  have hissue : exec .rfrLine2 (s.entered .med 3) = _ := exec_rfrLine2 hi
  have hwait := exec_rfrLine2w (s := ((s.entered .med 3).sent false s.cfg.cmdLine2).setStep .med 4) rfl
  obtain ⟨t, ht, hdone⟩ := (hsent.setStep 5).serves_char (pre := [.rfrLine2w]) rfl rfl (hc.trans_lt (by decide)) rfl
    rfl (by decide) (exec_evReady_latched (s.entered .med 3) false s.cfg.cmdLine2 .med 4)
    ((execAll_singleton _ _).trans hwait)
    fun hs => .cons ((hsent.runs hs (n := 4) rfl).takenAlone rfl rfl (by decide)) hwait trivial
  exact ⟨t, .send (pre := [.dispatchMed, .rfrSel]) issuesAt_rfrLine2 rfl (by decide) rfl (execAll_medEntry hbranch)
    hissue (fun hs => ⟨hs.selfRun_medEntry, hentered.runs hs rfl, hwaiting.runs hs rfl⟩) ht, hdone⟩

end Served

/-- One medium tick, served after completion (41_display_refresh.md rule R140). -/
theorem serves_refresh {s : State} (hd : s.initDone = true) (hi : s.ts = .idle) :
    ∃ t, Serves (Undisturbed s) (refreshServices s.cursor.val) s t ∧
      Refreshed (refreshWords s) (if s.cursor.val = 32 then 0 else s.cursor.val + 1) s t := by
  have hread : s.cursor.val < 32 → (memRead s s.cursor.val).getD 0 = s.cursorByte := fun hc => by
    rw [memRead_cursor hc, Option.getD_some]
  unfold refreshServices refreshWords
  by_cases h32 : s.cursor.val = 32
  · simp only [if_pos h32]
    exact serves_home hd hi h32
  · have hlt : s.cursor.val < 32 := by omega
    by_cases h16 : s.cursor.val = 16
    · simp only [if_neg h32, if_pos h16, hread hlt]
      exact serves_secondLine hd hi h16
    · simp only [if_neg h32, if_neg h16, hread hlt]
      exact serves_character hd hi hlt h16

/-! ### What a served tick leaves alone -/

section Refreshed
variable {s t : State} {words : List (Bool × Byte)} {c : Nat}

theorem memRead_congr (hc : t.cfg = s.cfg) (hf : t.fb = s.fb) (a : Nat) : memRead t a = memRead s a := by
  unfold memRead
  rw [hc, hf]

theorem Refreshed.cfg (h : Refreshed words c s t) : t.cfg = s.cfg := by
  obtain ⟨f, hf, rfl⟩ := h.handler
  exact hf.cfg

theorem Refreshed.memRead (h : Refreshed words c s t) (a : Nat) : Machine.memRead t a = Machine.memRead s a := by
  obtain ⟨f, hf, rfl⟩ := h.handler
  exact memRead_congr hf.cfg hf.fb a

theorem Refreshed.initDone (h : Refreshed words c s t) : t.initDone = s.initDone := by
  obtain ⟨f, hf, rfl⟩ := h.handler
  exact hf.initDone

theorem Refreshed.released (h : Refreshed words c s t) : t.rstActive = s.rstActive := by
  obtain ⟨f, hf, rfl⟩ := h.handler
  exact hf.released

theorem Refreshed.ien (h : Refreshed words c s t) : t.ien = s.ien := by
  obtain ⟨f, hf, rfl⟩ := h.handler
  exact hf.ien

theorem Refreshed.background (h : Refreshed words c s t) : t.hpc.bg = s.hpc.bg := by
  obtain ⟨f, hf, rfl⟩ := h.handler
  exact hf.background

theorem Refreshed.pend (h : Refreshed words c s t) : t.pend = s.pend.set .med false := by
  obtain ⟨f, hf, rfl⟩ := h.handler
  exact hf.pend

theorem Refreshed.act (h : Refreshed words c s t) : t.act = s.act.set .med false := by
  obtain ⟨f, hf, rfl⟩ := h.handler
  rw [leaveHandler_eq, hf.act]
  rfl

theorem Refreshed.ovr (h : Refreshed words c s t) : t.ovr = s.ovr.set .med (s.pend.med || s.ovr.med) := by
  obtain ⟨f, hf, rfl⟩ := h.handler
  exact hf.ovr

/-- The next tick finds the block undisturbed too. -/
theorem Refreshed.undisturbed (h : Refreshed words c s t) (hs : Undisturbed s) : Undisturbed t :=
  ⟨h.released.trans hs.released, h.ien.trans hs.enabled, by rw [h.pend]; exact hs.noFastTick,
    by rw [h.act]; exact hs.noFast, by rw [h.act]; rfl⟩

end Refreshed

/-! ### The cycle -/

/-- What the medium tick at cursor `c` sends of the frame of `s`. -/
def cycleWords (s : State) (c : Nat) : List (Bool × Byte) :=
  if c = 32 then [(false, s.cfg.cmdHome)]
  else (if c = 16 then [(false, s.cfg.cmdLine2)] else []) ++ [(true, (memRead s c).getD 0)]

/-- From `s`, with the cursor at 0, the ticks at cursors below `n` have been served. -/
structure CycleProgress (s : State) (n : Nat) (t : State) : Prop where
  cfg : t.cfg = s.cfg
  frame : ∀ a, memRead t a = memRead s a
  initDone : t.initDone = true
  idle : t.ts = .idle
  cursor : t.cursor.val = n % 33
  words : t.lcdTrace = s.lcdTrace ++ (List.range n).flatMap (cycleWords s)
  undisturbed : Undisturbed s → Undisturbed t

theorem CycleProgress.next {s t u : State} {n : Nat} (h : CycleProgress s n t) (hn : n < 33)
    (hu : Refreshed (refreshWords t) (if t.cursor.val = 32 then 0 else t.cursor.val + 1) t u) :
    CycleProgress s (n + 1) u := by
  have hc : t.cursor.val = n := by rw [h.cursor, Nat.mod_eq_of_lt hn]
  have hwords : refreshWords t = cycleWords s n := by
    rw [refreshWords, cycleWords, hc, h.cfg, h.frame]
  refine ⟨hu.cfg.trans h.cfg, fun a => (hu.memRead a).trans (h.frame a), hu.initDone.trans h.initDone, hu.idle, ?_, ?_,
    fun hs => hu.undisturbed (h.undisturbed hs)⟩
  · rw [hu.cursor, hc]
    split <;> omega
  · rw [hu.words, h.words, hwords, List.range_succ, List.flatMap_append, List.append_assoc, List.flatMap_singleton]

/-- The cycle, tick by tick: it answers, and undisturbed it follows the state. -/
theorem refreshCycle {s : State} (hd : s.initDone = true) (hi : s.ts = .idle) (hc : s.cursor = 0) {n : Nat}
    (hn : n ≤ 33) :
    ∃ t, execAll (refreshActivations n) s = .next t ∧ CycleProgress s n t ∧
      (Undisturbed s → Follows (refreshActivations n) s) := by
  induction n with
  | zero => exact ⟨s, rfl, ⟨rfl, fun _ => rfl, hd, hi, by rw [hc]; rfl, (List.append_nil _).symm, id⟩, fun _ => trivial⟩
  | succ n ih =>
    obtain ⟨t, ht, hp, hfol⟩ := ih (by omega)
    obtain ⟨u, hserves, hu⟩ := serves_refresh hp.initDone hp.idle
    have hcur : t.cursor.val = n := by rw [hp.cursor, Nat.mod_eq_of_lt (by omega)]
    have hexec : execAll (refreshActivation n) t = .next u := by
      rw [← hcur, ← servedOps_refreshServices]
      exact hserves.execAll
    refine ⟨u, execAll_append_next ht hexec, hp.next (by omega) hu, fun hs => ?_⟩
    refine (follows_append _ _ _).mpr ⟨hfol hs, fun t' ht' => ?_⟩
    rw [ht] at ht'
    cases ht'
    rw [← hcur, ← servedOps_refreshServices]
    exact hserves.follows (hp.undisturbed hs)

/-- Settles O39: the words of the 33 ticks are those of the cycle. -/
theorem refreshCycleSendsTheFrame : Obligations.RefreshCycleSendsTheFrame := by
  intro s hd hi hc
  obtain ⟨t, ht, hp, hfol⟩ := refreshCycle hd hi hc (n := 33) (by decide)
  refine ⟨⟨t, ht, Fin.ext hp.cursor, hp.idle, hp.frame, hp.words.trans ?_⟩,
    fun hr hien hpf haf ham => hfol ⟨hr, hien, hpf, haf, ham⟩⟩
  simp only [List.append_assoc]
  rfl

/-! ### The block's own run -/

/-- A background that idles with nothing pending and no transaction in flight is quiescent. -/
theorem quiescent_of_idle {s : State} (h : Runs .bg 1 s) (hi : s.ts = .idle) : quiescent s = true := by
  have machine : machineReady s = false := by
    have hf : fetchMachine s = .ok .bgIdle := h.fetch
    simp [machineReady, hf]
  have transport : transportReady s = false := by
    simp [transportReady, fetchTransport, hi, Phase.code, decodeTp]
  exact (quiescent_iff s).mpr ⟨(atRest_iff s).mpr ⟨machine, transport⟩, hi⟩

/-- The idle background runs when nothing is pending or active. -/
theorem runs_bg {s : State} (hr : s.rstActive = false) (hp : s.pend = ⟨false, false, false⟩)
    (ha : s.act = ⟨false, false, false⟩) {n : BitVec 6} (hn : s.hpc.bg = n) : Runs .bg n s :=
  ⟨hr, by simp [dispatchRule, wantsDispatch, hp, SourceBits.get], running_eq_bg.mpr (by simp [ha]), hn⟩

/-- Settles O40: the turns present the services of the tick, and the block is then quiescent again. -/
theorem mediumTickRunsTheRefresh : Obligations.MediumTickRunsTheRefresh := by
  intro s rest hv hr hd hien hbg hp ha hi hag
  have hs : Undisturbed s := ⟨hr, hien, by rw [hp], by rw [ha], by rw [ha]⟩
  obtain ⟨t, hserves, ht⟩ := serves_refresh hd hi
  have hpend : t.pend = s.pend := by rw [ht.pend, hp]; rfl
  have hact : t.act = s.act := by rw [ht.act, ha]; rfl
  have hovr : t.ovr = s.ovr := by rw [ht.ovr, hp]; rfl
  have hbgt : Runs .bg 1 t :=
    runs_bg (ht.released.trans hr) (hpend.trans hp) (hact.trans ha) (ht.background.trans hbg)
  have hquiet : quiescent t = true := quiescent_of_idle hbgt ht.idle
  have hne : refreshServices s.cursor.val ≠ [] := by
    unfold refreshServices
    split_ifs <;> exact List.cons_ne_nil _ _
  have hturns : s.withTurns (servedTurns (refreshServices s.cursor.val) ++ rest) = s := by
    rw [servedTurns_refreshServices, ← hag]
    rfl
  have hserved : Reaches s (t.withTurns (.run :: rest)) :=
    hturns ▸ hserves.reaches hs hv hr hne rest
  have hend : Reaches (t.withTurns (.run :: rest)) (t.withTurns rest) :=
    reaches_of_atRest (s := t.withTurns (.run :: rest)) (ht.cfg ▸ hv) rfl ((quiescent_iff t).mp hquiet).1
  obtain ⟨k, hk⟩ := hserved.trans hend
  exact ⟨k, t.withTurns rest, hk, rfl, ht.words, ht.cursor, hpend, hact, hovr, ht.ien.trans hien, hquiet, ht.memRead⟩

end Sys2Proof.Machine
end

section
/-! O45: the init schedule, one served fast tick at a time. -/

namespace Sys2Proof.Machine

/-! ### The schedule lookup (20_memory.md rule R64) -/

/-- Under a valid record the lookup finds the entry of a tick count, which is the only one. -/
theorem scheduleMatch_eq_some {p : Params} (hv : p.valid = true) {ms : BitVec 16} {i : Fin 8} :
    scheduleMatch p ms = some i ↔ p.schedT[i] = ms := by
  refine ⟨scheduleMatch_some, fun h => ?_⟩
  cases hm : scheduleMatch p ms with
  | none => exact absurd h (scheduleMatch_none hm i)
  | some j =>
    have hj : p.schedT[j].toNat = p.schedT[i].toNat := by rw [scheduleMatch_some hm, h]
    rw [(schedT_strictMono hv).injective hj]

/-- Along a list that rises, the entries up to `n + 1` are those up to `n` and the one at `n + 1`. -/
theorem filter_le_succ {α : Type} {f : α → Nat} {l : List α} (hl : l.Pairwise fun a b => f a < f b) (n : Nat) :
    l.filter (fun a => f a ≤ n + 1) = l.filter (fun a => f a ≤ n) ++ (l.find? fun a => f a = n + 1).toList := by
  induction l with
  | nil => rfl
  | cons a l ih =>
    obtain ⟨hal, hl⟩ := List.pairwise_cons.mp hl
    rcases Nat.lt_trichotomy (f a) (n + 1) with h | h | h
    · have hle : f a ≤ n := by omega
      have hle' : f a ≤ n + 1 := by omega
      simp [hle, hle', h.ne, ih hl]
    · have none_below : ∀ m ≤ n + 1, l.filter (fun b => f b ≤ m) = [] := fun m hm =>
        List.filter_eq_nil_iff.mpr fun b hb => by
          have := hal b hb
          simp only [decide_eq_true_eq]
          omega
      have hle : ¬ f a ≤ n := by omega
      simp [h, none_below]
    · have hle : ¬ f a ≤ n := by omega
      have hle' : ¬ f a ≤ n + 1 := by omega
      simp [hle, hle', h.ne', ih hl]

/-- What the tick that takes `INIT_MS` to `ms` sends. -/
def tickWords (p : Params) (ms : BitVec 16) : List (Bool × Byte) :=
  (scheduleMatch p ms).toList.map fun i => (false, scheduleCommand p i)

/-- What the ticks up to `n` send: the commands of the entries up to `n`. -/
def scheduleWords (p : Params) (n : Nat) : List (Bool × Byte) :=
  (scheduleIndices.filter fun i => p.schedT[i].toNat ≤ n).map fun i => (false, scheduleCommand p i)

theorem scheduleIndices_rise {p : Params} (hv : p.valid = true) :
    scheduleIndices.Pairwise fun i j => p.schedT[i].toNat < p.schedT[j].toNat := by
  have hsorted : scheduleIndices.Pairwise (· < ·) := by decide
  exact hsorted.imp fun hij => schedT_strictMono hv hij

theorem scheduleWords_zero {p : Params} (hv : p.valid = true) : scheduleWords p 0 = [] := by
  have hnone : scheduleIndices.filter (fun i => p.schedT[i].toNat ≤ 0) = [] :=
    List.filter_eq_nil_iff.mpr fun i _ => by
      obtain ⟨-, -, -, hfirst⟩ := valid_bounds hv
      have hle : p.schedT[(0 : Fin 8)].toNat ≤ p.schedT[i].toNat := (schedT_strictMono hv).monotone (Fin.zero_le i)
      have hzero : p.schedT[(0 : Fin 8)] = p.schedT[0] := rfl
      rw [hzero] at hle
      simp only [decide_eq_true_eq]
      omega
  rw [scheduleWords, hnone, List.map_nil]

theorem scheduleWords_succ {p : Params} (hv : p.valid = true) {n : Nat} (hn : n + 1 < 2 ^ 16) :
    scheduleWords p (n + 1) = scheduleWords p n ++ tickWords p (BitVec.ofNat 16 (n + 1)) := by
  have hmatch : scheduleMatch p (BitVec.ofNat 16 (n + 1)) =
      scheduleIndices.find? fun i => p.schedT[i].toNat = n + 1 := by
    refine congrArg (scheduleIndices.find? ·) (funext fun i => ?_)
    rw [Bool.eq_iff_iff, beq_iff_eq, decide_eq_true_iff, BitVec.toNat_eq, BitVec.toNat_ofNat, Nat.mod_eq_of_lt hn]
  rw [scheduleWords, scheduleWords, tickWords, filter_le_succ (scheduleIndices_rise hv), hmatch, List.map_append]

/-- Up to the last entry, the eight commands in order. -/
theorem scheduleWords_last {p : Params} (hv : p.valid = true) :
    scheduleWords p p.schedT[7].toNat = scheduleIndices.map fun i => (false, scheduleCommand p i) := by
  have hall : scheduleIndices.filter (fun i => p.schedT[i].toNat ≤ p.schedT[7].toNat) = scheduleIndices :=
    List.filter_eq_self.mpr fun i _ => decide_eq_true ((schedT_strictMono hv).monotone (Fin.le_last i))
  rw [scheduleWords, hall]

/-! ### The operations of the init sequence -/

section Operations
variable {s : State}

/-- A tick has been counted, and entry `i` is selected. -/
def State.counted (s : State) (i : Fin 8) : State := { s with initMs := s.initMs + 1, tSel := i }

/-- Whether init is complete, as the last operation of a command leaves it. -/
def State.completed (s : State) : State := { s with initDone := decide (s.tSel = 7) || s.initDone }

theorem exec_iniTick_some (hd : s.initDone = false) (hlt : s.initMs.toNat + 1 < 2 ^ 16) {i : Fin 8}
    (hm : scheduleMatch s.cfg (s.initMs + 1) = some i) :
    exec .iniTick s = .next ((s.counted i).setStep .fast 1) := by
  have hnd : ¬ s.initDone = true := by simp [hd]
  simp only [exec, execIniTick, if_neg hnd, if_pos hlt, hm]
  rfl

theorem exec_iniTick_none (hd : s.initDone = false) (hlt : s.initMs.toNat + 1 < 2 ^ 16)
    (hm : scheduleMatch s.cfg (s.initMs + 1) = none) :
    exec .iniTick s = .next ((s.counted s.tSel).setStep .fast 3) := by
  have hnd : ¬ s.initDone = true := by simp [hd]
  simp only [exec, execIniTick, if_neg hnd, if_pos hlt, hm]
  rfl

theorem exec_iniCmd (h : s.ts = .idle) :
    exec .iniCmd s = .next ((s.issued false (scheduleCommand s.cfg s.tSel)).setStep .fast 2) :=
  issueStep_eq h rfl .fast 2

theorem exec_iniCmdw (h : s.ts = .idle) : exec .iniCmdw s = .next (s.completed.setStep .fast 3) :=
  whenIdle_of_idle h _

end Operations

/-! ### One served fast tick -/

/-- Interrupts are enabled and the `FAST` handler is not active. -/
structure FastFree (s : State) : Prop where
  released : s.rstActive = false
  enabled : s.ien = true
  noFast : s.act.fast = false

/-- A fast tick is dispatched whatever else is pending. -/
theorem FastFree.dispatches_fast {s : State} (h : FastFree s) : dispatchRule (latchTick .fast s) = some .fast := by
  have hbelow : (latchTick .fast s).running.prio < Source.fast.context.prio := by
    have hfast : (latchTick .fast s).act.fast = false := by simp [latchTick, h.noFast]
    unfold State.running
    rw [hfast]
    cases (latchTick .fast s).act.med <;> cases (latchTick .fast s).act.ctrl <;> decide
  have hpend : (latchTick .fast s).pend.fast = true := by simp [latchTick]
  have hien : (latchTick .fast s).ien = true := by simp [latchTick, h.enabled]
  simp [dispatchRule, wantsDispatch, SourceBits.get, hpend, hien, hbelow]

/-- What a served fast tick has left alone while its handler is active in `t`. -/
structure FastServing (s t : State) : Prop where
  cfg : t.cfg = s.cfg
  released : t.rstActive = s.rstActive
  ien : t.ien = s.ien
  active : t.act.fast = true

section FastServing
variable {s t : State}

theorem fastServing_entered (s : State) : FastServing s (s.entered .fast 0) := ⟨rfl, rfl, rfl, rfl⟩

theorem FastServing.setStep (h : FastServing s t) (n : BitVec 6) : FastServing s (t.setStep .fast n) :=
  ⟨h.cfg, h.released, h.ien, h.active⟩

theorem FastServing.sent (h : FastServing s t) (rs : Bool) (b : Byte) : FastServing s (t.sent rs b) :=
  ⟨h.cfg, h.released, h.ien, h.active⟩

theorem FastServing.counted (h : FastServing s t) (i : Fin 8) : FastServing s (t.counted i) :=
  ⟨h.cfg, h.released, h.ien, h.active⟩

theorem FastServing.completed (h : FastServing s t) : FastServing s t.completed :=
  ⟨h.cfg, h.released, h.ien, h.active⟩

theorem FastServing.runs (h : FastServing s t) (hs : FastFree s) {n : BitVec 6} (hn : t.hpc.fast = n) :
    Runs .fast n t :=
  runs_fast (h.released.trans hs.released) h.active hn

end FastServing

/-- The services of the fast tick that takes `INIT_MS` to `ms`. -/
def initServices (p : Params) (ms : BitVec 16) : List (Instr × List Instr) :=
  match scheduleMatch p ms with
  | some _ => [(.evTickF, [.dispatchFast, .iniTick, .iniCmd, .trnEhi, .trnElo]), (.evReady, [.iniCmdw, .retFast])]
  | none => [(.evTickF, [.dispatchFast, .iniTick, .retFast])]

theorem servedOps_initServices (p : Params) (ms : BitVec 16) : servedOps (initServices p ms) = initActivation p ms := by
  unfold initServices initActivation
  cases scheduleMatch p ms <;> rfl

/-- The handler has returned: what one served fast tick does before completion. -/
structure FastServed (s t : State) : Prop where
  cfg : t.cfg = s.cfg
  released : t.rstActive = s.rstActive
  ien : t.ien = s.ien
  noFast : t.act.fast = false
  idle : t.ts = .idle
  initMs : t.initMs = s.initMs + 1
  initDone : t.initDone = decide (scheduleMatch s.cfg (s.initMs + 1) = some 7)
  words : t.lcdTrace = s.lcdTrace ++ tickWords s.cfg (s.initMs + 1)

section Served
variable {s : State}

/-- The return ends the service. -/
theorem FastServing.leave {f : State} (h : FastServing s f) (hi : f.ts = .idle) (hms : f.initMs = s.initMs + 1)
    (hd : f.initDone = decide (scheduleMatch s.cfg (s.initMs + 1) = some 7))
    (hw : f.lcdTrace = s.lcdTrace ++ tickWords s.cfg (s.initMs + 1)) : FastServed s (leaveHandler .fast f) :=
  ⟨h.cfg, h.released, h.ien, rfl, hi, hms, hd, hw⟩

theorem FastFree.takes_dispatch (h : FastFree s) : TakenAlone .dispatchFast (latchTick .fast s) :=
  takenAlone_dispatch (src := .fast) (by simp [latchTick, h.released]) h.dispatches_fast

theorem FastFree.takes_iniTick (h : FastFree s) : TakenAlone .iniTick (s.entered .fast 0) :=
  ((fastServing_entered s).runs h (n := 0) rfl).takenAlone rfl rfl (by decide)

/-- A tick at an entry of the schedule sends its command. -/
theorem serves_command (hd : s.initDone = false) (hi : s.ts = .idle) (hlt : s.initMs.toNat + 1 < 2 ^ 16) {i : Fin 8}
    (hm : scheduleMatch s.cfg (s.initMs + 1) = some i) :
    ∃ t, Serves (FastFree s) [(.evTickF, [.dispatchFast, .iniTick, .iniCmd, .trnEhi, .trnElo]),
        (.evReady, [.iniCmdw, .retFast])] s t ∧ FastServed s t := by
  have hticked := ((fastServing_entered s).counted i).setStep 1
  have hwaiting := hticked.setStep 2
  have hdone := (((hticked.sent false (scheduleCommand s.cfg i)).setStep 2).completed).setStep 3
  have htick := exec_iniTick_some (s := s.entered .fast 0) hd hlt hm
  have hissue : exec .iniCmd (((s.entered .fast 0).counted i).setStep .fast 1) = _ := exec_iniCmd hi
  have hwait := exec_iniCmdw (s := ((((s.entered .fast 0).counted i).setStep .fast 1).sent false
    (scheduleCommand s.cfg i)).setStep .fast 2) rfl
  refine ⟨_, .send (pre := [.dispatchFast, .iniTick]) issuesAt_iniCmd rfl (by decide) rfl
    (execAll_cons_next (exec_dispatch_ticked .fast s) ((execAll_singleton _ _).trans htick)) hissue
    (fun hs => ⟨.cons hs.takes_dispatch (exec_dispatch_ticked .fast s) (.cons hs.takes_iniTick htick trivial),
      hticked.runs hs rfl, hwaiting.runs hs rfl⟩)
    (issuesAt_iniCmd.finish rfl (fun _ => rfl) (by decide) hwait rfl
      fun hs => ⟨hwaiting.runs hs rfl, hdone.runs hs rfl⟩), hdone.leave rfl ?_ ?_ ?_⟩
  · simp only [State.completed, State.sent, State.counted, State.entered, State.setStep_initMs]
  · simp only [State.completed, State.sent, State.counted, State.entered, State.setStep_initDone, State.setStep_tSel,
      hd, hm, Bool.or_false, Option.some_inj]
  · rw [tickWords, hm]
    rfl

/-- Any other tick only counts. -/
theorem serves_count (hd : s.initDone = false) (hi : s.ts = .idle) (hlt : s.initMs.toNat + 1 < 2 ^ 16)
    (hm : scheduleMatch s.cfg (s.initMs + 1) = none) :
    ∃ t, Serves (FastFree s) [(.evTickF, [.dispatchFast, .iniTick, .retFast])] s t ∧ FastServed s t := by
  have hticked := ((fastServing_entered s).counted s.tSel).setStep 3
  have htick := exec_iniTick_none (s := s.entered .fast 0) hd hlt hm
  have hret : exec .retFast (((s.entered .fast 0).counted s.tSel).setStep .fast 3) = _ := rfl
  refine ⟨_, .serve rfl (by decide) rfl
      (execAll_cons_next (exec_dispatch_ticked .fast s) (execAll_cons_next htick ((execAll_singleton _ _).trans hret)))
      (fun hs => .cons hs.takes_dispatch (exec_dispatch_ticked .fast s) (.cons hs.takes_iniTick htick
        (.cons ((hticked.runs hs (n := 3) rfl).takenAlone rfl rfl (by decide)) rfl trivial)))
      (fun _ hl => absurd rfl hl) (.done _), hticked.leave hi ?_ ?_ ?_⟩
  · simp only [State.counted, State.entered, State.setStep_initMs]
  · rw [hm]
    exact hd
  · rw [tickWords, hm]
    exact (List.append_nil _).symm

/-- One fast tick, served before completion (40_display_init.md rule R110). -/
theorem serves_init (hd : s.initDone = false) (hi : s.ts = .idle) (hlt : s.initMs.toNat + 1 < 2 ^ 16) :
    ∃ t, Serves (FastFree s) (initServices s.cfg (s.initMs + 1)) s t ∧ FastServed s t := by
  unfold initServices
  cases hm : scheduleMatch s.cfg (s.initMs + 1) with
  | some i => exact serves_command hd hi hlt hm
  | none => exact serves_count hd hi hlt hm

end Served

/-! ### The sequence -/

/-- From `s`, with the init registers at reset, the fast ticks up to `n` have been served. -/
structure InitProgress (s : State) (n : Nat) (t : State) : Prop where
  cfg : t.cfg = s.cfg
  idle : t.ts = .idle
  initMs : t.initMs = BitVec.ofNat 16 n
  initDone : t.initDone = decide (n = s.cfg.schedT[7].toNat)
  words : t.lcdTrace = s.lcdTrace ++ scheduleWords s.cfg n
  free : FastFree s → FastFree t

theorem InitProgress.next {s t u : State} {n : Nat} (hv : s.cfg.valid = true) (h : InitProgress s n t)
    (hn : n + 1 < 2 ^ 16) (hu : FastServed t u) : InitProgress s (n + 1) u := by
  have hms : t.initMs + 1 = BitVec.ofNat 16 (n + 1) := by rw [h.initMs, BitVec.ofNat_add]; rfl
  have hlast : s.cfg.schedT[(7 : Fin 8)] = BitVec.ofNat 16 (n + 1) ↔ n + 1 = s.cfg.schedT[7].toNat := by
    rw [BitVec.toNat_eq, BitVec.toNat_ofNat, Nat.mod_eq_of_lt hn]
    exact eq_comm
  refine ⟨hu.cfg.trans h.cfg, hu.idle, hu.initMs.trans hms, ?_, ?_, fun hs => ?_⟩
  · rw [hu.initDone, hms, h.cfg]
    exact decide_eq_decide.mpr ((scheduleMatch_eq_some hv).trans hlast)
  · rw [hu.words, h.words, hms, h.cfg, scheduleWords_succ hv hn, List.append_assoc]
  · obtain ⟨hr, hien, -⟩ := h.free hs
    exact ⟨hu.released.trans hr, hu.ien.trans hien, hu.noFast⟩

/-- The sequence, tick by tick: it answers, and with `FAST` free it follows the state. -/
theorem initSequence {s : State} (hv : s.cfg.valid = true) (hms : s.initMs = 0) (hd : s.initDone = false)
    (hi : s.ts = .idle) {n : Nat} (hn : n ≤ s.cfg.schedT[7].toNat) :
    ∃ t, execAll (initActivations s.cfg n) s = .next t ∧ InitProgress s n t ∧
      (FastFree s → Follows (initActivations s.cfg n) s) := by
  induction n with
  | zero =>
    have hpos : 0 < s.cfg.schedT[7].toNat :=
      Nat.lt_of_le_of_lt (Nat.zero_le _) (schedT_strictMono hv (show (0 : Fin 8) < 7 by decide))
    refine ⟨s, rfl, ⟨rfl, hi, hms, ?_, ?_, id⟩, fun _ => trivial⟩
    · rw [hd, decide_eq_false hpos.ne]
    · rw [scheduleWords_zero hv, List.append_nil]
  | succ n ih =>
    have hwidth := s.cfg.schedT[7].isLt
    obtain ⟨t, ht, hp, hfol⟩ := ih (by omega)
    have hdt : t.initDone = false := by
      rw [hp.initDone]
      exact decide_eq_false (by omega)
    have hmst : t.initMs.toNat = n := by
      rw [hp.initMs, BitVec.toNat_ofNat, Nat.mod_eq_of_lt (by omega)]
    obtain ⟨u, hserves, hu⟩ := serves_init hdt hp.idle (by omega)
    have hnext : t.initMs + 1 = BitVec.ofNat 16 (n + 1) := by rw [hp.initMs, BitVec.ofNat_add]; rfl
    have hops : servedOps (initServices t.cfg (t.initMs + 1)) = initActivation s.cfg (BitVec.ofNat 16 (n + 1)) := by
      rw [servedOps_initServices, hp.cfg, hnext]
    refine ⟨u, execAll_append_next ht (hops ▸ hserves.execAll), hp.next hv (by omega) hu, fun hs => ?_⟩
    refine (follows_append _ _ _).mpr ⟨hfol hs, fun t' ht' => ?_⟩
    rw [ht] at ht'
    cases ht'
    exact hops ▸ hserves.follows (hp.free hs)

/-- Settles O45: the words of the ticks up to the last entry are the eight commands. -/
theorem initSendsTheScheduleThenCompletes : Obligations.InitSendsTheScheduleThenCompletes := by
  intro s hv hms hd hi
  refine ⟨fun n hn => ?_, ?_⟩
  · obtain ⟨t, ht, hp, -⟩ := initSequence hv hms hd hi (Nat.le_of_lt hn)
    have hwidth := s.cfg.schedT[7].isLt
    refine ⟨t, ht, ?_, ?_⟩
    · rw [hp.initDone]
      exact decide_eq_false hn.ne
    · rw [hp.initMs, BitVec.toNat_ofNat, Nat.mod_eq_of_lt (by omega)]
  · obtain ⟨t, ht, hp, hfol⟩ := initSequence hv hms hd hi (Nat.le_refl _)
    refine ⟨⟨t, ht, ?_, ?_, ?_⟩, fun hr hien hf => hfol ⟨hr, hien, hf⟩⟩
    · rw [hp.initDone]
      exact decide_eq_true rfl
    · rw [hp.initMs, BitVec.ofNat_toNat, BitVec.setWidth_eq]
    · rw [hp.words, scheduleWords_last hv]
      rfl

end Sys2Proof.Machine
end

section
/-! O51 and O52: the single-writer table (10_state.md rule R44). The table is read as a relation between registers and
operations; an operation is built from parts, and each part changes only registers that it may write. -/

namespace Sys2Proof.Machine

/-- What the table of rule R44 speaks of: the registers and the cells, the two traces and `RST_ACTIVE`. -/
inductive Register where
  | duty | cmdSpeed | tAdc | measSpeed | tPulses | sampleCnt | pulseCnt | cursor | tByte | initMs | tSel | initDone
  | ien | ienSave | ts | tw | lcdTrace | dutyTrace | rstActive
  | pend (src : Source) | ovr (src : Source) | act (src : Source) | step (c : Context) | cell (a : Nat)

/-- The register holds the same in both states. -/
def Register.Agrees (r : Register) (s t : State) : Prop :=
  match r with
  | .duty => t.duty = s.duty
  | .cmdSpeed => t.cmdSpeed = s.cmdSpeed
  | .tAdc => t.tAdc = s.tAdc
  | .measSpeed => t.measSpeed = s.measSpeed
  | .tPulses => t.tPulses = s.tPulses
  | .sampleCnt => t.sampleCnt = s.sampleCnt
  | .pulseCnt => t.pulseCnt = s.pulseCnt
  | .cursor => t.cursor = s.cursor
  | .tByte => t.tByte = s.tByte
  | .initMs => t.initMs = s.initMs
  | .tSel => t.tSel = s.tSel
  | .initDone => t.initDone = s.initDone
  | .ien => t.ien = s.ien
  | .ienSave => t.ienSave = s.ienSave
  | .ts => t.ts = s.ts
  | .tw => t.tw = s.tw
  | .lcdTrace => t.lcdTrace = s.lcdTrace
  | .dutyTrace => t.dutyTrace = s.dutyTrace
  | .rstActive => t.rstActive = s.rstActive
  | .pend src => t.pend.get src = s.pend.get src
  | .ovr src => t.ovr.get src = s.ovr.get src
  | .act src => t.act.get src = s.act.get src
  | .step c => t.hpc.get c = s.hpc.get c
  | .cell a => memRead t a = memRead s a

/-- The operation is one of the register's writers other than reset. -/
def Register.Writer (r : Register) (i : Instr) : Prop :=
  match r with
  | .duty | .dutyTrace => i = .ctlDuty
  | .cmdSpeed | .tAdc => i = .ctlTarget
  | .measSpeed => i = .ctlMeasure
  | .tPulses => i = .ctlPulses
  | .sampleCnt => i = .ctlDiv
  | .pulseCnt => i = .evPulse ∨ i = .ctlPulses
  | .cursor => i = .rfrHomew ∨ i = .rfrCharw
  | .tByte => i = .rfrChar
  | .initMs | .tSel => i = .iniTick
  | .initDone => i = .iniCmdw
  | .ien => i = .evStart ∨ i = .bgStart ∨ i = .csEnter ∨ i = .csExit
  | .ienSave => i = .csEnter
  | .ts =>
    i ∈ [Instr.iniCmd, .rfrHome, .rfrLine2, .rfrChar, .trnEhi, .trnElo, .trnDone, .evReady,
      .lcdFuncset, .lcdDispoff, .lcdClear, .lcdEntrymode, .lcdDispon, .lcdLine2, .lcdHome] ∨ ∃ d, i = .lcdData d
  | .tw =>
    i ∈ [Instr.iniCmd, .rfrHome, .rfrLine2, .rfrChar,
      .lcdFuncset, .lcdDispoff, .lcdClear, .lcdEntrymode, .lcdDispon, .lcdLine2, .lcdHome] ∨ ∃ d, i = .lcdData d
  | .lcdTrace => i = .trnElo
  | .rstActive => False
  | .pend src => i = tickOf src ∨ i = dispatchOf src
  | .ovr src => i = tickOf src
  | .act src => i = dispatchOf src ∨ i = returnOf src
  | .step c =>
    (∃ n : BitVec 6, decodeSt (c.code ++ n) = .ok i) ∨ (∃ src, src.context = c ∧ i = dispatchOf src) ∨
    (c = .bg ∧ i = .evStart)
  | .cell a => i = .ctlFmt (BitVec.ofNat 5 a)

theorem Register.Agrees.refl (r : Register) (s : State) : r.Agrees s s := by
  cases r <;> rfl

theorem Register.Agrees.trans {r : Register} {s t u : State} (h : r.Agrees s t) (h' : r.Agrees t u) :
    r.Agrees s u := by
  cases r <;> exact Eq.trans h' h

/-- `f` changes only the registers of `W`. -/
def WritesOnly (W : Register → Prop) (f : State → Result) : Prop :=
  ∀ s t, f s = .next t → ∀ r, ¬ W r → r.Agrees s t

theorem ne_of_not_mem {W : Register → Prop} {r r' : Register} (hr : ¬ W r) (hr' : W r') : r ≠ r' :=
  fun h => hr (h.symm ▸ hr')

theorem agrees_setStep {r : Register} {c : Context} (h : r ≠ .step c) (s : State) (n : BitVec 6) :
    r.Agrees s (s.setStep c n) := by
  cases r
  case step d => exact Steps.get_set_other s.hpc (fun hd => h (congrArg Register.step hd)) n
  all_goals rfl

theorem agrees_setPend {r : Register} {src : Source} (h : r ≠ .pend src) (s : State) (v : Bool) :
    r.Agrees s (s.setPend src v) := by
  cases r
  case pend d => exact SourceBits.get_set_other s.pend (fun hd => h (congrArg Register.pend hd)) v
  all_goals rfl

theorem agrees_setAct {r : Register} {src : Source} (h : r ≠ .act src) (s : State) (v : Bool) :
    r.Agrees s (s.setAct src v) := by
  cases r
  case act d => exact SourceBits.get_set_other s.act (fun hd => h (congrArg Register.act hd)) v
  all_goals rfl

theorem agrees_setOvr {r : Register} {src : Source} (h : r ≠ .ovr src) (s : State) (v : Bool) :
    r.Agrees s (s.setOvr src v) := by
  cases r
  case ovr d => exact SourceBits.get_set_other s.ovr (fun hd => h (congrArg Register.ovr hd)) v
  all_goals rfl

/-! ### The parts of an operation -/

section Parts
variable {W : Register → Prop} {f g : State → Result}

/-- An update of registers that are plain fields of the state. -/
theorem WritesOnly.update {f : State → State}
    (h : ∀ s r, ¬ W r → r.Agrees s (f s) := by
      intro s r hr; cases r <;> simp [Register.Writer] at hr <;> rfl) :
    WritesOnly W fun s => .next (f s) := by
  rintro s _ ⟨⟩
  exact h s

theorem WritesOnly.unchanged : WritesOnly W .next := by
  rintro s _ ⟨⟩ r -
  exact .refl r s

theorem WritesOnly.refused (r : Refusal) : WritesOnly W fun _ => .refused r := by
  rintro _ _ ⟨⟩

theorem WritesOnly.andThen (hf : WritesOnly W f) (hg : WritesOnly W g) : WritesOnly W fun s => andThen (f s) g := by
  intro s t h r hr
  obtain ⟨u, hu, ht⟩ := andThen_next_iff.mp h
  exact (hf s u hu r hr).trans (hg u t ht r hr)

theorem WritesOnly.ite {c : State → Prop} [DecidablePred c] (hf : WritesOnly W f) (hg : WritesOnly W g) :
    WritesOnly W fun s => if c s then f s else g s := by
  intro s t h
  dsimp only at h
  split at h
  · exact hf s t h
  · exact hg s t h

theorem WritesOnly.iteUpdate {c : State → Prop} [DecidablePred c] {f g : State → State}
    (hf : WritesOnly W fun s => .next (f s)) (hg : WritesOnly W fun s => .next (g s)) :
    WritesOnly W fun s => .next (if c s then f s else g s) := by
  simpa only [apply_ite] using WritesOnly.ite (c := c) hf hg

theorem WritesOnly.whenIdle (hf : WritesOnly W f) : WritesOnly W fun s => whenIdle s (f s) :=
  .ite hf .unchanged

/-- An update, and then another step of a context. -/
theorem WritesOnly.setStep {c : Context} {n : State → BitVec 6} {f : State → State} (hc : W (.step c))
    (hf : WritesOnly W fun s => .next (f s)) : WritesOnly W fun s => .next ((f s).setStep c (n s)) := by
  rintro s _ ⟨⟩ r hr
  exact (hf s _ rfl r hr).trans (agrees_setStep (ne_of_not_mem hr hc) _ _)

/-- A tick. -/
theorem WritesOnly.latchTick {src : Source} (hp : W (.pend src)) (ho : W (.ovr src)) :
    WritesOnly W fun s => .next (latchTick src s) := by
  rintro s _ ⟨⟩ r hr
  exact (agrees_setOvr (ne_of_not_mem hr ho) s _).trans (agrees_setPend (ne_of_not_mem hr hp) _ _)

/-- A dispatch. -/
theorem WritesOnly.enterHandler {src : Source} (hp : W (.pend src)) (ha : W (.act src)) (hc : W (.step src.context)) :
    WritesOnly W fun s => .next (enterHandler src s) := by
  refine .setStep hc ?_
  rintro s _ ⟨⟩ r hr
  exact (agrees_setPend (ne_of_not_mem hr hp) s _).trans (agrees_setAct (ne_of_not_mem hr ha) _ _)

/-- A return. -/
theorem WritesOnly.leaveHandler {src : Source} (ha : W (.act src)) :
    WritesOnly W fun s => .next (leaveHandler src s) := by
  rintro s _ ⟨⟩ r hr
  exact agrees_setAct (ne_of_not_mem hr ha) s _

theorem WritesOnly.issue {rs : Bool} {b : State → Byte} (hts : W .ts) (htw : W .tw) :
    WritesOnly W fun s => issue rs (b s) s := by
  intro s t h r hr
  obtain ⟨-, rfl⟩ := issue_next h
  cases r
  case ts => exact absurd hts hr
  case tw => exact absurd htw hr
  all_goals rfl

/-- Issuing what the multiplexer shows, and then another step of the context. -/
theorem WritesOnly.issueStep {sel : MuxSelect} {c : Context} {n : BitVec 6} (hts : W .ts) (htw : W .tw)
    (hc : W (.step c)) :
    WritesOnly W fun s => Machine.andThen (issueSelected sel s) fun t => .next (t.setStep c n) := by
  refine .andThen (fun s t h => ?_) (.setStep (n := fun _ => n) hc .unchanged)
  obtain ⟨rs, b, -, hi, rfl⟩ := issueSelected_next h
  exact WritesOnly.issue (b := fun _ => b) hts htw s _ (issue_idle rs b hi)

theorem WritesOnly.completeTransfer (hts : W .ts) : WritesOnly W fun s => .next (completeTransfer s) := by
  refine .iteUpdate (c := fun s => s.ts = .settle) (.update fun s r hr => ?_) .unchanged
  cases r
  case ts => exact absurd hts hr
  all_goals rfl

theorem WritesOnly.startBackground (hi : W .ien) (hc : W (.step .bg)) :
    WritesOnly W fun s => .next (startBackground s) := by
  refine .iteUpdate (c := fun s => s.hpc.bg = 0) (.setStep (n := fun _ => 1) hc (.update fun s r hr => ?_)) .unchanged
  cases r
  case ien => exact absurd hi hr
  all_goals rfl

end Parts

/-! ### The operations -/

theorem writesOnly_evPulse : WritesOnly (·.Writer .evPulse) (exec .evPulse) :=
  .iteUpdate (c := fun s => s.initDone = true) .update .unchanged

theorem writesOnly_ctlDiv : WritesOnly (·.Writer .ctlDiv) (exec .ctlDiv) :=
  .ite (c := fun s => nextSample s = s.cfg.kDiv) (.setStep (n := fun _ => 1) (.inl ⟨0, rfl⟩) .update)
    (.setStep (n := fun _ => 7) (.inl ⟨0, rfl⟩) .update)

theorem writesOnly_ctlFmt (k : BitVec 5) : WritesOnly (·.Writer (.ctlFmt k)) (exec (.ctlFmt k)) := by
  have standing : decodeSt (Context.ctrl.code ++ (1#1 ++ k)) = .ok (.ctlFmt k) := by
    revert k; decide
  refine .andThen (fun s t h r hr => ?_) (.setStep (n := fun _ => formatSuccessor k) (.inl ⟨_, standing⟩) .unchanged)
  have drawn : r.Agrees s (formatCell k.toFin s).2 := by
    rcases formatCell_snd k.toFin s with hs | hs <;> rw [hs] <;> cases r <;> rfl
  refine drawn.trans ?_
  cases r
  case cell a =>
    have ha : a ≠ k.toNat := fun ha => hr (by simp [Register.Writer, ha])
    exact (memRead_after_memWrite h a).trans (if_neg ha)
  all_goals
    obtain ⟨-, rfl⟩ := memWrite_next h
    rfl

theorem writesOnly_rfrChar : WritesOnly (·.Writer .rfrChar) (exec .rfrChar) := by
  intro s t h
  simp only [exec, execRfrChar] at h
  split at h
  · next b hb =>
    have byte : WritesOnly (·.Writer .rfrChar) fun s => .next (s.withByte b) := .update
    have send : WritesOnly (·.Writer .rfrChar) fun s =>
        andThen (issueSelected .rfrChar s) fun t => .next (t.setStep .med 6) :=
      .issueStep (by simp [Register.Writer]) (by simp [Register.Writer]) (.inl ⟨5, rfl⟩)
    exact byte.andThen send s t h
  · cases h

theorem writesOnly_rfrCharw : WritesOnly (·.Writer .rfrCharw) (exec .rfrCharw) := by
  refine .whenIdle fun s t h => ?_
  split at h
  · next hlt =>
    have advance : WritesOnly (·.Writer .rfrCharw) fun s => .next ((s.withCursor ⟨_, hlt⟩).setStep .med 7) :=
      .setStep (n := fun _ => 7) (.inl ⟨6, rfl⟩) .update
    exact advance s t h
  · cases h

theorem writesOnly_iniTick : WritesOnly (·.Writer .iniTick) (exec .iniTick) := by
  have step : Register.Writer (.step .fast) .iniTick := .inl ⟨0, rfl⟩
  refine .ite (c := fun s => s.initDone = true) (.setStep (n := fun _ => 3) step .unchanged)
    (.ite (c := fun s => s.initMs.toNat + 1 < 2 ^ 16) (fun s t h => ?_) (.refused _))
  split at h
  · next i hm =>
    have found : WritesOnly (·.Writer .iniTick) fun s => .next ((s.counted i).setStep .fast 1) :=
      .setStep (n := fun _ => 1) step .update
    exact found s t h
  · have count : WritesOnly (·.Writer .iniTick) fun s => .next ((s.counted s.tSel).setStep .fast 3) :=
      .setStep (n := fun _ => 3) step .update
    exact count s t h

/-- An operation that is not a reset changes a register only if it is a writer of it. -/
theorem exec_writesOnly {i : Instr} (hi : i ≠ .evRst) : WritesOnly (·.Writer i) (exec i) := by
  cases i
  case evRst => exact absurd rfl hi
  case evTickF => exact .latchTick (.inl rfl) rfl
  case evTickM => exact .latchTick (.inl rfl) rfl
  case evTickC => exact .latchTick (.inl rfl) rfl
  case evPulse => exact writesOnly_evPulse
  case evReady => exact .completeTransfer (by simp [Register.Writer])
  case evStart => exact .startBackground (.inl rfl) (.inr (.inr ⟨rfl, rfl⟩))
  case dispatchFast => exact .enterHandler (.inr rfl) (.inl rfl) (.inr (.inl ⟨.fast, rfl, rfl⟩))
  case dispatchMed => exact .enterHandler (.inr rfl) (.inl rfl) (.inr (.inl ⟨.med, rfl, rfl⟩))
  case dispatchCtrl => exact .enterHandler (.inr rfl) (.inl rfl) (.inr (.inl ⟨.ctrl, rfl, rfl⟩))
  case bgStart => exact .startBackground (.inr (.inl rfl)) (.inl ⟨0, rfl⟩)
  case bgIdle => exact .setStep (.inl ⟨1, rfl⟩) .unchanged
  case ctlDiv => exact writesOnly_ctlDiv
  case ctlTarget => exact .setStep (.inl ⟨1, rfl⟩) .update
  case csEnter => exact .setStep (.inl ⟨2, rfl⟩) .update
  case ctlPulses => exact .setStep (.inl ⟨3, rfl⟩) .update
  case csExit => exact .setStep (.inl ⟨4, rfl⟩) .update
  case ctlMeasure => exact .setStep (.inl ⟨5, rfl⟩) .update
  case ctlFmt k => exact writesOnly_ctlFmt k
  case ctlDuty => exact .setStep (.inl ⟨6, rfl⟩) .update
  case retCtrl => exact .leaveHandler (.inr rfl)
  case rfrSel => exact .setStep (.inl ⟨0, rfl⟩) .unchanged
  case rfrHome => exact .issueStep (by simp [Register.Writer]) (by simp [Register.Writer]) (.inl ⟨1, rfl⟩)
  case rfrHomew => exact .whenIdle (.setStep (.inl ⟨2, rfl⟩) .update)
  case rfrLine2 => exact .issueStep (by simp [Register.Writer]) (by simp [Register.Writer]) (.inl ⟨3, rfl⟩)
  case rfrLine2w => exact .whenIdle (.setStep (.inl ⟨4, rfl⟩) .unchanged)
  case rfrChar => exact writesOnly_rfrChar
  case rfrCharw => exact writesOnly_rfrCharw
  case retMed => exact .leaveHandler (.inr rfl)
  case iniTick => exact writesOnly_iniTick
  case iniCmd => exact .issueStep (by simp [Register.Writer]) (by simp [Register.Writer]) (.inl ⟨1, rfl⟩)
  case iniCmdw => exact .whenIdle (.setStep (.inl ⟨2, rfl⟩) .update)
  case retFast => exact .leaveHandler (.inr rfl)
  case trnEhi => exact .update
  case trnElo => exact .update
  case trnDone => exact .completeTransfer (by simp [Register.Writer])
  all_goals exact .issue (by simp [Register.Writer]) (by simp [Register.Writer])

/-- Settles O51: each row of the table is `exec_writesOnly` at its register. -/
theorem everyRegisterHasItsWriter : Obligations.EveryRegisterHasItsWriter := by
  intro i s t h hi
  have writer : ∀ r : Register, ¬ r.Agrees s t → r.Writer i := fun r hr =>
    by_contra fun hw => hr (exec_writesOnly hi s t h r hw)
  have released : t.rstActive = s.rstActive := exec_writesOnly hi s t h .rstActive id
  obtain ⟨hcfg, hadc, hagenda, -⟩ := environmentFree_exec i s t h
  exact ⟨writer .duty, writer .cmdSpeed, writer .tAdc, writer .measSpeed, writer .tPulses, writer .sampleCnt,
    writer .pulseCnt, writer .cursor, writer .tByte, writer .initMs, writer .tSel, writer .initDone, writer .ien,
    writer .ienSave, writer .ts, writer .tw, fun src => writer (.pend src), fun src => writer (.ovr src),
    fun src => writer (.act src), fun c => writer (.step c), fun a => writer (.cell a), writer .lcdTrace,
    writer .dutyTrace, released, hcfg, hadc, hagenda⟩

/-- Settles O52: no other operation is a writer of a cell. -/
theorem onlyFormatStoresToTheFrame : Obligations.OnlyFormatStoresToTheFrame :=
  fun _ s t h hfmt hi a => exec_writesOnly hi s t h (.cell a) (hfmt _)

end Sys2Proof.Machine
end

section
/-! What a step can do, and whose turn it is: the rules by which a property of states or of steps is proved one turn
at a time. -/

namespace Sys2Proof.Machine

/-! ### What the agents fetch -/

/-- The machine fetches the dispatch that is wanted, else the operation at the running context's step (00_scope.md rule
R13). -/
theorem fetchMachine_ok {s : State} {i : Instr} (h : fetchMachine s = .ok i) :
    (∃ src, dispatchRule s = some src ∧ i = dispatchOf src) ∨
    (dispatchRule s = none ∧ decodeSt (stateCode s) = .ok i) := by
  cases hd : dispatchRule s with
  | some src =>
    rw [fetchMachine_of_dispatch hd] at h
    exact .inl ⟨src, rfl, (Except.ok.inj h).symm⟩
  | none =>
    rw [fetchMachine_of_no_dispatch hd] at h
    exact .inr ⟨rfl, h⟩

/-- The transport fetches the operation of its phase (30_encoding.md rule R89). -/
theorem fetchTransport_ok {s : State} {i : Instr} (h : fetchTransport s = .ok i) :
    (s.ts = .setup ∧ i = .trnEhi) ∨ (s.ts = .ehi ∧ i = .trnElo) ∨ (s.ts = .settle ∧ i = .trnDone) := by
  unfold fetchTransport at h
  cases hts : s.ts <;> rw [hts] at h <;> cases h <;> decide

/-- A state code that selects an operation is the code of that operation; the record does not matter. -/
theorem encode_of_decodeSt {w : BitVec 8} {i : Instr} (h : decodeSt w = .ok i) : encode Params.refEx i = .st w := by
  have table : ∀ w : BitVec 8, (decodeSt w).toOption.all fun i => decide (encode Params.refEx i = .st w) := by decide
  have hw := table w
  rw [h] at hw
  exact of_decide_eq_true hw

/-- The machine fetches an operation of a sequencer where that operation stands (30_encoding.md rule R86). -/
theorem stands_of_decodeSt {s : State} {c : Context} {n : BitVec 6} {i : Instr} (h : decodeSt (stateCode s) = .ok i)
    (hi : encode Params.refEx i = .st (c.code ++ n)) : s.running = c ∧ s.hpc.get c = n := by
  rw [encode_of_decodeSt h] at hi
  exact stateCode_eq_iff.mp (Code.st.inj hi)

/-- The machine fetches no event. -/
theorem fetchMachine_ne_event {s : State} {i : Instr} (h : fetchMachine s = .ok i) (w : BitVec 7) :
    encode Params.refEx i ≠ .ev w := by
  rcases fetchMachine_ok h with ⟨src, -, rfl⟩ | ⟨-, hi⟩
  · cases src <;> nofun
  · rw [encode_of_decodeSt hi]
    nofun

/-- The transport fetches no event. -/
theorem fetchTransport_ne_event {s : State} {i : Instr} (h : fetchTransport s = .ok i) (w : BitVec 7) :
    encode Params.refEx i ≠ .ev w := by
  rcases fetchTransport_ok h with ⟨-, rfl⟩ | ⟨-, rfl⟩ | ⟨-, rfl⟩ <;> nofun

/-! ### The environment's turn -/

/-- The events other than reset (30_encoding.md rule R82). -/
def eventOps : List Instr := [.evTickF, .evTickM, .evTickC, .evPulse, .evReady, .evStart]

theorem mem_eventOps {w : BitVec 7} (hw : w[6] = false) {i : Instr} (h : i ∈ decodeEvents w) : i ∈ eventOps := by
  have table : ∀ w : BitVec 7, w[6] = false → ∀ j ∈ decodeEvents w, j ∈ eventOps := by decide
  exact table w hw i h

/-- No operation other than a reset changes whether reset is active. -/
theorem exec_rstActive {i : Instr} (hi : i ≠ .evRst) {s t : State} (h : exec i s = .next t) :
    t.rstActive = s.rstActive :=
  exec_writesOnly hi s t h .rstActive id

/-- A property that the release of reset gives, and that every event keeps, holds after a vector that is no reset. -/
theorem eventTurn_rule {P : State → Prop} {w : BitVec 7} {s t : State} (h : eventTurn w s = .next t)
    (hw : w[6] = false) (released : P (releaseReset s))
    (event : ∀ i ∈ eventOps, ∀ u v, u.rstActive = false → P u → exec i u = .next v → P v) : P t := by
  have all : ∀ (l : List Instr) (u : State), (∀ i ∈ l, i ∈ eventOps) → u.rstActive = false → P u →
      execAll l u = .next t → P t := by
    intro l
    induction l with
    | nil =>
      rintro u - - hu ⟨⟩
      exact hu
    | cons i l ih =>
      intro u hl hr hu hx
      obtain ⟨v, hv, hx⟩ := andThen_next_iff.mp hx
      have hi : i ∈ eventOps := hl i (by simp)
      have hne : i ≠ .evRst := fun e => absurd (e ▸ hi) (by decide)
      exact ih v (fun j hj => hl j (by simp [hj])) ((exec_rstActive hne hv).trans hr) (event i hi u v hr hu hv) hx
  rw [eventTurn, if_neg (by simp [hw])] at h
  exact all _ _ (fun i => mem_eventOps hw) rfl released h

/-! ### Every turn -/

/-- The turn is the machine's, or the block runs on its own. -/
def MachineMoves (s : State) : Prop := s.agenda = [] ∨ ∃ rest, s.agenda = .machine :: rest ∨ s.agenda = .run :: rest

/-- All that a step can do, by whose turn it is. -/
inductive Transition (s t : State) : Prop where
  /-- The environment presents an event vector. -/
  | event {w : BitVec 7} {rest : List Turn} (turn : s.agenda = .event w :: rest)
      (result : eventTurn w (s.withTurns rest) = .next t)
  /-- The environment changes the `adc` level. -/
  | level {a : BitVec 16} {rest : List Turn} (result : t = { s with adc := a, agenda := rest })
  /-- The turn passes. -/
  | pass {rest : List Turn} (result : t = s.withTurns rest)
  /-- The transport performs its phase. -/
  | transport {i : Instr} {rest : List Turn} (released : s.rstActive = false) (fetched : fetchTransport s = .ok i)
      (isEnabled : enabled i s = true) (result : exec i (s.withTurns rest) = .next t)
  /-- The machine performs what it fetches. -/
  | machine {i : Instr} {rest : List Turn} (turn : MachineMoves s) (released : s.rstActive = false)
      (fetched : fetchMachine s = .ok i) (isEnabled : enabled i s = true)
      (result : exec i (s.withTurns rest) = .next t)

theorem Transition.of_machineTurn {s t : State} {rest : List Turn} (turn : MachineMoves s)
    (h : machineTurn (s.withTurns rest) = .next t) : Transition s t := by
  rcases machineTurn_next h with ht | ⟨i, hr, hf, he, hx⟩
  · exact .pass ht
  · exact .machine turn hr hf he hx

theorem Transition.of_transportTurn {s t : State} {rest : List Turn}
    (h : transportTurn (s.withTurns rest) = .next t) : Transition s t := by
  rcases transportTurn_next h with ht | ⟨i, hr, hf, he, hx⟩
  · exact .pass ht
  · exact .transport hr hf he hx

theorem Transition.of_autoTurn {s t : State} (turn : MachineMoves s) (h : autoTurn s = .next t) : Transition s t := by
  rcases autoTurn_next h with ht | hm | ht
  · exact .pass (rest := s.agenda) ht
  · exact .of_machineTurn (rest := s.agenda) turn hm
  · exact .of_transportTurn (rest := s.agenda) ht

theorem step_transition {s t : State} (h : step s = .next t) : Transition s t := by
  have ht := step_next h
  unfold takeTurn at ht
  split at ht
  · next ha => exact .of_autoTurn (.inl ha) ht
  · next w rest ha => exact .event ha ht
  · next a rest ha => exact .level (Host.Outcome.next.inj ht).symm
  · next rest ha => exact .of_machineTurn (.inr ⟨rest, .inl ha⟩) ht
  · next rest ha => exact .of_transportTurn ht
  · next rest ha =>
    split at ht
    · exact .pass (Host.Outcome.next.inj ht).symm
    · exact .of_autoTurn (.inr ⟨rest, .inr ha⟩) ht

/-- The step takes a reset from the environment. -/
def TakesReset (s t : State) : Prop :=
  ∃ w rest, s.agenda = .event w :: rest ∧ w.getLsbD 6 = true ∧ t = resetRegisters (s.withTurns rest)

/-- A property of the next state that holds when a turn passes, and that every event and every operation of the block
gives, holds after every step that takes no reset. -/
theorem step_rule {P : State → Prop} {s t : State} (h : step s = .next t) (pass : ∀ rest, P (s.withTurns rest))
    (level : ∀ a rest, P { s with adc := a, agenda := rest }) (released : ∀ rest, P (releaseReset (s.withTurns rest)))
    (event : ∀ i ∈ eventOps, ∀ u v, u.rstActive = false → P u → exec i u = .next v → P v)
    (own : ∀ i rest, OwnOperation i s → exec i (s.withTurns rest) = .next t → P t) : TakesReset s t ∨ P t := by
  cases step_transition h with
  | @event w rest turn result =>
    cases hw : w[6]
    · exact .inr (eventTurn_rule result hw (released rest) event)
    · rw [eventTurn, if_pos hw] at result
      exact .inl ⟨w, rest, turn, hw, (Host.Outcome.next.inj result).symm⟩
  | level result => exact .inr (result ▸ level _ _)
  | pass result => exact .inr (result ▸ pass _)
  | transport released fetched isEnabled result => exact .inr (own _ _ ⟨released, .inr fetched, isEnabled⟩ result)
  | machine turn released fetched isEnabled result =>
    exact .inr (own _ _ ⟨released, .inl fetched, isEnabled⟩ result)

/-- No agent of the block performs an event. -/
theorem OwnOperation.ne_event {i : Instr} {s : State} (h : OwnOperation i s) (w : BitVec 7) :
    encode Params.refEx i ≠ .ev w := by
  obtain ⟨-, hf | hf, -⟩ := h
  · exact fetchMachine_ne_event hf w
  · exact fetchTransport_ne_event hf w

theorem OwnOperation.ne_evRst {i : Instr} {s : State} (h : OwnOperation i s) : i ≠ .evRst :=
  fun e => h.ne_event 0x40#7 (by rw [e]; rfl)

end Sys2Proof.Machine
end

section
/-! The statements about reset and about single steps: O8, O16, O17, O23, O34, O44, O50 and O56. -/

namespace Sys2Proof.Machine

/-! ### Reset (70_reset_and_hazards.md) -/

/-- Settles O8: under an active reset no agent of the block is ready, and its turn passes. -/
theorem nothingRunsWhileResetIsActive : Obligations.NothingRunsWhileResetIsActive := by
  intro s rest hv hr turn
  rcases turn with ha | ha | ha
  · exact (step_machine hv ha).trans (if_pos hr)
  · exact (step_transport hv ha).trans (if_pos hr)
  · have hrest : atRest s = true := by simp [atRest, machineReady, transportReady, hr]
    exact (step_run hv ha).trans (if_pos hrest)

/-- The assignment of reset is that of 10_state.md rule R46. -/
theorem holdsReset_resetRegisters (s : State) : (resetRegisters s).HoldsReset := by
  have cells : ∀ a : Fin 32, memRead (resetRegisters s) a.val = some s.cfg.fbReset[a] := fun a => by
    simp [memRead, resetRegisters, Memory.cell, Memory.unlisted]
  exact ⟨rfl, rfl, rfl, rfl, rfl, rfl, rfl, rfl, rfl, rfl, rfl, rfl, rfl, rfl, cells, rfl, rfl⟩

/-- Settles O16: the next state is `resetRegisters s`. -/
theorem resetAssignsEveryRegister : Obligations.ResetAssignsEveryRegister :=
  ⟨rfl, fun s => ⟨_, rfl, holdsReset_resetRegisters s, rfl, rfl, rfl, rfl⟩⟩

/-- Settles O17: reset makes the registers hold their values, and while it is active the turns pass. -/
theorem activeResetHoldsRegisters : Obligations.ActiveResetHoldsRegisters := by
  intro s t hs h
  have kept : TakesReset s t ∨ (t.rstActive = true → t.HoldsReset) := by
    refine step_rule (P := fun u => u.rstActive = true → u.HoldsReset) h (fun rest hr => ?_) (fun a rest hr => ?_)
      (fun rest hr => ?_) (fun i hi u v hu _ hx hr => ?_) (fun i rest hown hx hr => ?_)
    · exact { hs hr with }
    · exact { hs hr with }
    · cases hr
    · have hne : i ≠ .evRst := fun e => absurd (e ▸ hi) (by decide)
      rw [exec_rstActive hne hx, hu] at hr
      cases hr
    · have hne : i ≠ .evRst := hown.ne_evRst
      obtain ⟨hreleased, -⟩ := hown
      rw [exec_rstActive hne hx] at hr
      exact absurd hr (by simp [State.withTurns, hreleased])
  rcases kept with ⟨w, rest, -, -, rfl⟩ | kept
  · exact fun _ => holdsReset_resetRegisters _
  · exact kept

/-! ### Progress of the init sequence (40_display_init.md) -/

/-- What `INI.TICK` can do (rule R111). -/
theorem iniTick_next {s t : State} (h : exec .iniTick s = .next t) :
    (s.initDone = true ∧ t = s.setStep .fast 3) ∨
    (s.initDone = false ∧ s.initMs.toNat + 1 < 2 ^ 16 ∧
      ((∃ i, scheduleMatch s.cfg (s.initMs + 1) = some i ∧ t = (s.counted i).setStep .fast 1) ∨
       (scheduleMatch s.cfg (s.initMs + 1) = none ∧ t = (s.counted s.tSel).setStep .fast 3))) := by
  cases hd : s.initDone
  case true => exact .inl ⟨rfl, (Host.Outcome.next.inj ((if_pos hd).symm.trans h)).symm⟩
  by_cases hlt : s.initMs.toNat + 1 < 2 ^ 16
  case neg =>
    have hnd : ¬ s.initDone = true := by simp [hd]
    simp only [exec, execIniTick, if_neg hnd, if_neg hlt] at h
    cases h
  refine .inr ⟨rfl, hlt, ?_⟩
  cases hm : scheduleMatch s.cfg (s.initMs + 1) with
  | some i => exact .inl ⟨i, rfl, (Host.Outcome.next.inj ((exec_iniTick_some hd hlt hm).symm.trans h)).symm⟩
  | none => exact .inr ⟨rfl, (Host.Outcome.next.inj ((exec_iniTick_none hd hlt hm).symm.trans h)).symm⟩

/-- A tick that is counted takes `INIT_MS` one further. -/
theorem counted_initMs {s : State} (h : s.initMs.toNat + 1 < 2 ^ 16) (i : Fin 8) :
    (s.counted i).initMs.toNat = s.initMs.toNat + 1 :=
  BitVec.toNat_add_of_lt h

/-- No operation other than a reset takes `INIT_DONE` or `INIT_MS` back: each has one writer (10_state.md rule R44). -/
theorem exec_init_mono {i : Instr} (hi : i ≠ .evRst) {s t : State} (h : exec i s = .next t) :
    (s.initDone = true → t.initDone = true) ∧ s.initMs.toNat ≤ t.initMs.toNat := by
  constructor
  · intro hd
    by_cases hw : i = .iniCmdw
    · subst hw
      rcases whenIdle_next h with ⟨-, ⟨⟩⟩ | ⟨-, rfl⟩
      · simp [hd]
      · exact hd
    · have agrees : t.initDone = s.initDone := exec_writesOnly hi s t h .initDone hw
      rw [agrees, hd]
  · by_cases hw : i = .iniTick
    · subst hw
      rcases iniTick_next h with ⟨-, rfl⟩ | ⟨-, hlt, ⟨j, -, rfl⟩ | ⟨-, rfl⟩⟩
      · exact Nat.le_refl _
      · exact Nat.le_of_succ_le (counted_initMs hlt j).ge
      · exact Nat.le_of_succ_le (counted_initMs hlt s.tSel).ge
    · have agrees : t.initMs = s.initMs := exec_writesOnly hi s t h .initMs hw
      rw [agrees]

/-- Settles O44: only a reset takes the init registers back. -/
theorem initNeverReverts : Obligations.InitNeverReverts := by
  intro s t h
  have kept : TakesReset s t ∨ ((s.initDone = true → t.initDone = true) ∧ s.initMs.toNat ≤ t.initMs.toNat) := by
    refine step_rule (P := fun u => (s.initDone = true → u.initDone = true) ∧ s.initMs.toNat ≤ u.initMs.toNat) h
      (fun _ => ⟨id, Nat.le_refl _⟩) (fun _ _ => ⟨id, Nat.le_refl _⟩) (fun _ => ⟨id, Nat.le_refl _⟩)
      (fun i hi u v _ hu hx => ?_) (fun i rest hown hx => ?_)
    · have hne : i ≠ .evRst := fun e => absurd (e ▸ hi) (by decide)
      obtain ⟨hdone, hms⟩ := exec_init_mono hne hx
      exact ⟨hdone ∘ hu.1, hu.2.trans hms⟩
    · exact exec_init_mono (s := s.withTurns rest) hown.ne_evRst hx
  rcases kept with ⟨w, rest, turn, hw, -⟩ | kept
  · exact .inl ⟨w, rest, turn, hw⟩
  · exact .inr kept

/-! ### Pending and overrun flags (60_exceptions.md) -/

theorem exec_tickOf (src : Source) (s : State) : exec (tickOf src) s = .next (latchTick src s) := by
  cases src <;> rfl

/-- No operation other than a reset clears an overrun flag, and none other than its dispatch a pending flag. -/
theorem exec_keeps_flags {i : Instr} (hi : i ≠ .evRst) {s t : State} (h : exec i s = .next t) (src : Source) :
    (i ≠ dispatchOf src → s.pend.get src = true → t.pend.get src = true) ∧
    (s.ovr.get src = true → t.ovr.get src = true) := by
  by_cases htick : i = tickOf src
  · subst htick
    rw [exec_tickOf, latchTick_eq] at h
    cases h
    simp +contextual
  · refine ⟨fun hdispatch hp => ?_, fun ho => ?_⟩
    · have agrees : t.pend.get src = s.pend.get src :=
        exec_writesOnly hi s t h (.pend src) (not_or.mpr ⟨htick, hdispatch⟩)
      rw [agrees, hp]
    · have agrees : t.ovr.get src = s.ovr.get src := exec_writesOnly hi s t h (.ovr src) htick
      rw [agrees, ho]

/-- A dispatch is fetched only by the machine, and only when it is wanted. -/
theorem dispatchRule_of_fetch {s : State} {src : Source} (h : fetchMachine s = .ok (dispatchOf src)) :
    dispatchRule s = some src := by
  rcases fetchMachine_ok h with ⟨src', hd, he⟩ | ⟨-, hi⟩
  · cases src <;> cases src' <;> cases he <;> exact hd
  · have hcode := encode_of_decodeSt hi
    cases src <;> cases hcode

/-- Settles O23: an event keeps the flags, and an operation of the block clears one only as its dispatch. -/
theorem pendingAndOverrunAreCleared : Obligations.PendingAndOverrunAreCleared := by
  intro s t src h
  cases step_transition h with
  | @event w rest turn result =>
    cases hw : w[6]
    · obtain ⟨hpend, hovr⟩ := eventTurn_rule (P := fun u => (s.pend.get src = true → u.pend.get src = true) ∧
        (s.ovr.get src = true → u.ovr.get src = true)) result hw ⟨id, id⟩ fun i hi u v _ hu hx => by
          obtain ⟨hpend, hovr⟩ := exec_keeps_flags (fun e => absurd (e ▸ hi) (by decide)) hx src
          have hne : i ≠ dispatchOf src := fun e => absurd (e ▸ hi) (by cases src <;> decide)
          exact ⟨hpend hne ∘ hu.1, hovr ∘ hu.2⟩
      exact .inr ⟨fun hp => .inl (hpend hp), hovr⟩
    · exact .inl ⟨w, rest, turn, hw⟩
  | level result => exact .inr (result ▸ ⟨.inl, id⟩)
  | pass result => exact .inr (result ▸ ⟨.inl, id⟩)
  | @transport i rest released fetched isEnabled result =>
    have hown : OwnOperation i s := ⟨released, .inr fetched, isEnabled⟩
    have hne : i ≠ dispatchOf src := by
      rcases fetchTransport_ok fetched with ⟨-, rfl⟩ | ⟨-, rfl⟩ | ⟨-, rfl⟩ <;> cases src <;> decide
    obtain ⟨hpend, hovr⟩ := exec_keeps_flags hown.ne_evRst result src
    exact .inr ⟨fun hp => .inl (hpend hne hp), hovr⟩
  | @machine i rest turn released fetched isEnabled result =>
    have hown : OwnOperation i s := ⟨released, .inl fetched, isEnabled⟩
    obtain ⟨hpend, hovr⟩ := exec_keeps_flags hown.ne_evRst result src
    refine .inr ⟨fun hp => ?_, hovr⟩
    by_cases hdispatch : i = dispatchOf src
    · subst hdispatch
      rw [exec_dispatchOf, enterHandler_eq] at result
      cases result
      exact .inr ⟨dispatchRule_of_fetch fetched, SourceBits.get_set_same _ _ _, Steps.get_set_same _ _ _, turn⟩
    · exact .inl (hpend hdispatch hp)

/-! ### The control loop and the cursor (43_control_loop.md) -/

/-- A digit of the measured speed does not depend on the cursor. -/
theorem measuredCell_withCursor (n : Nat) (s : State) (k : Fin 33) :
    measuredCell n (s.withCursor k) = ((measuredCell n s).1, (measuredCell n s).2.withCursor k) := by
  by_cases h : s.measSpeed.toNat ≤ 9999
  · rw [measuredCell, measuredCell, if_pos h]
    exact if_pos h
  · rw [measuredCell, measuredCell, if_neg h]
    exact if_neg h

/-- The byte of a frame cell does not depend on the cursor. -/
theorem formatCell_withCursor (i : Fin 32) (s : State) (k : Fin 33) :
    formatCell i (s.withCursor k) = ((formatCell i s).1, (formatCell i s).2.withCursor k) := by
  unfold formatCell
  split
  · rfl
  · split
    · rfl
    · exact measuredCell_withCursor _ s k

/-- Settles O34: of the operations of the loop only `CTL.DIV` makes a choice, and it compares the sample count. -/
theorem controlLoopDoesNotSeeTheCursor : Obligations.ControlLoopDoesNotSeeTheCursor := by
  rintro i s k (hi | ⟨j, rfl⟩)
  · simp only [List.mem_cons, List.not_mem_nil, or_false] at hi
    rcases hi with rfl | rfl | rfl | rfl | rfl | rfl | rfl | rfl
    · change execCtlDiv (s.withCursor k) = andThen (execCtlDiv s) fun t => .next (t.withCursor k)
      by_cases h : nextSample s = s.cfg.kDiv
      · rw [execCtlDiv, execCtlDiv, if_pos h]
        exact if_pos h
      · rw [execCtlDiv, execCtlDiv, if_neg h]
        exact if_neg h
    all_goals rfl
  · change execCtlFmt j (s.withCursor k) = _
    have hj : j.toNat < frameLength := j.isLt
    simp only [exec, execCtlFmt, formatCell_withCursor, memWrite, if_pos hj, andThen_next]
    rfl

/-! ### The pins (10_state.md) -/

/-- Settles O50: the pins are bits of the registers. -/
theorem pinsShowTheRegisters : Obligations.PinsShowTheRegisters := by
  refine ⟨fun s h => h.readWrite, fun s => ⟨rfl, rfl, rfl, rfl, ?_, ?_⟩⟩
  · simp [State.pins]
  · simp [State.pins]

/-! ### Rest (30_encoding.md rule R102) -/

section Rest
variable {s : State}

/-- With reset not active, a transport that cannot go on is idle or waits for `EV.READY`. -/
theorem idle_or_settle_of_not_transportReady (hr : s.rstActive = false) (h : transportReady s = false) :
    s.ts = .idle ∨ s.ts = .settle := by
  cases hts : s.ts
  case idle => exact .inl rfl
  case settle => exact .inr rfl
  all_goals simp [transportReady, fetchTransport, hr, hts, Phase.code, decodeTp, enabled] at h

theorem setStep_self {c : Context} {n : BitVec 6} (h : s.hpc.get c = n) : s.setStep c n = s := by
  subst h
  cases c <;> rfl

/-- `BG.IDLE`, where the machine fetches it, changes nothing (45_scheduler.md rule R214). -/
theorem exec_bgIdle_of_fetch (h : fetchMachine s = .ok .bgIdle) : exec .bgIdle s = .next s := by
  rcases fetchMachine_ok h with ⟨src, -, he⟩ | ⟨-, hi⟩
  · cases src <;> cases he
  · obtain ⟨-, hn⟩ := stands_of_decodeSt (c := .bg) (n := 1) hi rfl
    exact congrArg Host.Outcome.next (setStep_self hn)

/-- The turn of a machine that has no visible step changes nothing. -/
theorem machineTurn_of_not_ready (h : machineReady s = false) : machineTurn s = .next s := by
  cases hr : s.rstActive
  case true => exact if_pos hr
  cases hf : fetchMachine s with
  | error e => simp [machineReady, hr, hf] at h
  | ok i =>
    rw [machineTurn_of_fetch hr hf]
    cases he : enabled i s
    · exact perform_of_not_enabled he
    · obtain rfl : i = .bgIdle := by simpa [machineReady, hr, hf, he] using h
      exact (perform_of_enabled he).trans (exec_bgIdle_of_fetch hf)

/-- The turn of a transport that cannot go on changes nothing. -/
theorem transportTurn_of_not_ready (h : transportReady s = false) : transportTurn s = .next s := by
  cases hr : s.rstActive
  case true => exact if_pos hr
  cases hf : fetchTransport s with
  | error e => simp [transportTurn, hr, hf]
  | ok i =>
    have he : enabled i s = false := by simpa [transportReady, hr, hf] using h
    rw [transportTurn_of_fetch hr hf, perform_of_not_enabled he]

/-- The turns that the environment has no part in. -/
def OwnTurns (l : List Turn) : Prop := ∀ u ∈ l, u = .machine ∨ u = .transport ∨ u = .run

/-- At rest, a turn of the block passes and nothing else changes. -/
theorem step_of_atRest (hv : s.cfg.valid = true) (hrest : atRest s = true) (hturns : OwnTurns s.agenda) :
    ∃ rest, OwnTurns rest ∧ step s = .next (s.withTurns rest) := by
  obtain ⟨hm, ht⟩ := (atRest_iff s).mp hrest
  cases ha : s.agenda with
  | nil =>
    refine ⟨s.agenda, hturns, ?_⟩
    rw [step_of_valid hv, takeTurn, ha]
    simp [autoTurn, hm, ht, State.withTurns, ← ha]
  | cons u rest =>
    have hlater : OwnTurns rest := fun v hvm => hturns v (by simp [ha, hvm])
    refine ⟨rest, hlater, ?_⟩
    rcases hturns u (by simp [ha]) with rfl | rfl | rfl
    · exact (step_machine hv ha).trans (machineTurn_of_not_ready (s := s.withTurns rest) hm)
    · exact (step_transport hv ha).trans (transportTurn_of_not_ready (s := s.withTurns rest) ht)
    · exact (step_run hv ha).trans (if_pos hrest)

/-- At rest, any number of such turns pass. -/
theorem run_of_atRest (k : Nat) (hv : s.cfg.valid = true) (hrest : atRest s = true) (hturns : OwnTurns s.agenda) :
    ∃ rest, Host.Core.run Sys2Proof.core k s = .next (s.withTurns rest) := by
  induction k generalizing s with
  | zero => exact ⟨s.agenda, rfl⟩
  | succ k ih =>
    obtain ⟨rest, hlater, hstep⟩ := step_of_atRest hv hrest hturns
    obtain ⟨last, hlast⟩ := ih (s := s.withTurns rest) hv hrest hlater
    have hcore : Sys2Proof.core.step s = .next (s.withTurns rest) := hstep
    refine ⟨last, ?_⟩
    simp only [Host.Core.run, hcore]
    exact hlast

end Rest

/-- Settles O56: `TS` is `IDLE` or `SETTLE` at rest, and every turn to come passes. -/
theorem restingBlockWaitsForTheEnvironment : Obligations.RestingBlockWaitsForTheEnvironment := by
  have busy : ∀ s : State, s.ts ≠ .idle → quiescent s = false := fun s hb => by simp [quiescent, hb]
  refine ⟨fun s hr hrest => ?_, busy, fun k s => run_of_atRest k⟩
  obtain ⟨-, ht⟩ := (atRest_iff s).mp hrest
  rcases idle_or_settle_of_not_transportReady hr ht with hts | hts
  · exact .inl ⟨hts, (quiescent_iff s).mpr ⟨hrest, hts⟩⟩
  · exact .inr ⟨hts, busy s (by simp [hts])⟩

end Sys2Proof.Machine
end

section
/-! O53 and O54: the invariant of 10_state.md rule R45 holds after reset, and every step keeps it. Each operation
changes a few registers, so each proof keeps the clauses of the invariant that those registers do not touch and gives
the others. -/

namespace Sys2Proof.Machine

/-! ### After reset -/

/-- The last entry of the schedule is not at tick 0. -/
theorem schedT_last_pos {p : Params} (h : p.valid = true) : 0 < p.schedT[7].toNat := by
  obtain ⟨-, -, -, hfirst⟩ := valid_bounds h
  have hle : p.schedT[(0 : Fin 8)].toNat ≤ p.schedT[(7 : Fin 8)].toNat :=
    (schedT_strictMono h).monotone (Fin.zero_le 7)
  exact Nat.lt_of_lt_of_le hfirst hle

/-- A state that holds the reset values, with a valid record and a canonical frame, meets the invariant. -/
theorem inv_of_holdsReset {s : State} (hv : s.cfg.valid = true) (hf : Memory.wf s.cfg.fbReset s.fb = true)
    (h : s.HoldsReset) : s.Inv where
  params := hv
  frame := hf
  sample := by simp [h.sampleCnt]
  steps c := by rw [h.hpc]; cases c <;> rfl
  background _ := ⟨h.ien, h.act⟩
  disabled _ := .inl (by rw [h.hpc])
  critical hc := by simp [State.inCritical, h.act] at hc
  transfer hb := absurd h.ts hb
  readWrite := by simp [h.tw]
  command hc := by simp [State.inCommand, h.act] at hc
  complete hd := by simp [h.initDone] at hd
  progress _ := .inl (by simpa [h.initMs] using schedT_last_pos hv)
  refresh hr := by simp [State.inRefresh, h.act] at hr
  cursorAt ha := by simp [h.act] at ha
  cursorStart _ := by simp [h.cursor]
  pulses _ := h.pulseCnt
  commanded ht := by simp [State.hasTarget, h.act] at ht

/-- Settles O53: the reset state holds the reset values. -/
theorem resetMeetsTheInvariant : Obligations.ResetMeetsTheInvariant :=
  inv_of_holdsReset (by decide) rfl
    ⟨rfl, rfl, rfl, rfl, rfl, rfl, rfl, rfl, rfl, rfl, rfl, rfl, rfl, rfl, by decide, rfl, rfl⟩

/-! ### Facts that several operations need -/

/-- Going to a listed step keeps every step listed. -/
theorem legalStep_set {h : Steps} (hl : ∀ d, legalStep d (h.get d) = true) {c : Context} {n : BitVec 6}
    (hn : legalStep c n = true) (d : Context) : legalStep d ((h.set c n).get d) = true := by
  by_cases hd : d = c
  · subst hd
    rwa [Steps.get_set_same]
  · rw [Steps.get_set_other h hd]
    exact hl d

/-- An issued word has its bit 8 clear (30_encoding.md rule R97). -/
theorem issuedWord_readWrite (rs : Bool) (b : Byte) : (BitVec.ofBool rs ++ 0#1 ++ b).getLsbD 8 = false := by
  rw [BitVec.getLsbD_append]
  cases rs <;> rfl

/-- The cursor that belongs to a step of the refresh (41_display_refresh.md rule R131). -/
def CursorFits (n : BitVec 6) (c : Nat) : Prop :=
  ((n = 1 ∨ n = 2) → c = 32) ∧ ((n = 3 ∨ n = 4) → c = 16) ∧ ((n = 5 ∨ n = 6) → c ≤ 31)

section Operations
variable {s t : State}

/-- Where no handler waits, the transport is idle. -/
theorem State.Inv.idle_of_not_waiting (h : s.Inv) (hf : s.atInitWait = false) (hm : s.atRefreshWait = false) :
    s.ts = .idle := by
  by_contra hb
  have hw := h.transfer hb
  simp [hf, hm] at hw

/-- Where `FAST` does not wait, a transaction in flight is one of the refresh. -/
theorem State.Inv.refresh_waits (h : s.Inv) (hf : s.atInitWait = false) (hb : s.ts ≠ .idle) :
    s.atRefreshWait = true := by
  by_contra hm
  exact hb (h.idle_of_not_waiting hf (by simpa using hm))

theorem transfer_of_refresh (hf : s.atInitWait = false) (hm : s.atRefreshWait = true) :
    (s.atInitWait ^^ s.atRefreshWait) = true := by
  rw [hf, hm]
  rfl

theorem transfer_of_command (hf : s.atInitWait = true) (hm : s.atRefreshWait = false) :
    (s.atInitWait ^^ s.atRefreshWait) = true := by
  rw [hf, hm]
  rfl

/-- Inside a handler the background has started. -/
theorem State.Inv.started (h : s.Inv) {src : Source} (ha : s.act.get src = true) : s.hpc.bg ≠ 0 := by
  intro hb
  obtain ⟨-, hact⟩ := h.background hb
  rw [hact] at ha
  cases src <;> cases ha

/-! ### The operations of the control loop -/

/-- Outside the critical section `CTRL` goes on to another step outside it. -/
theorem State.Inv.moveCtrl (h : s.Inv) {n : BitVec 6} (legal : legalStep .ctrl n = true)
    (outside : s.inCritical = false) (stays : n ≠ 3#6 ∧ n ≠ 4#6)
    (target : (s.setStep .ctrl n).hasTarget = true →
      s.cfg.minRpm ≤ s.cmdSpeed.toNat ∧ s.cmdSpeed.toNat ≤ s.cfg.maxRpm) :
    (s.setStep .ctrl n).Inv :=
  { h with
    steps := legalStep_set h.steps legal
    disabled := fun hi => .inl ((h.disabled hi).resolve_right (by simp [outside]))
    critical := fun hc => by simp [State.inCritical, stays] at hc
    commanded := target }

theorem State.Inv.ctlDiv (h : s.Inv) (hr : Runs .ctrl 0 s) (hx : exec .ctlDiv s = .next t) : t.Inv := by
  have hn : s.hpc.ctrl = 0 := hr.atStep
  have counted : ∀ c : BitVec 32, c.toNat < 2 ^ s.cfg.sampleWidth → ({ s with sampleCnt := c } : State).Inv :=
    fun c hc => { h with sample := hc }
  have bound : (BitVec.ofNat 32 (nextSample s)).toNat < 2 ^ s.cfg.sampleWidth :=
    Nat.lt_of_le_of_lt (by rw [BitVec.toNat_ofNat]; exact Nat.mod_le _ _) (Nat.mod_lt _ (Nat.two_pow_pos _))
  have cleared : ∀ b : Bool, (if b then 0 else BitVec.ofNat 32 (nextSample s)).toNat < 2 ^ s.cfg.sampleWidth := by
    rintro (_ | _)
    · exact bound
    · exact Nat.two_pow_pos _
  simp only [exec, execCtlDiv] at hx
  split at hx <;> cases hx
  · exact (counted _ (cleared _)).moveCtrl (by decide) (by simp [State.inCritical, hn]) (by decide)
      (by simp [State.hasTarget])
  · exact (counted _ bound).moveCtrl (by decide) (by simp [State.inCritical, hn]) (by decide)
      (by simp [State.hasTarget])

/-- The commanded speed fits its register and lies in range (43_control_loop.md rule R162). -/
theorem commandedSpeed_range {p : Params} (hv : p.valid = true) (a : Nat) :
    p.minRpm ≤ (BitVec.ofNat 16 (commandedSpeed p a)).toNat ∧
    (BitVec.ofNat 16 (commandedSpeed p a)).toNat ≤ p.maxRpm := by
  obtain ⟨⟨hle, -, hmax⟩, -⟩ := valid_bounds hv
  obtain ⟨hlo, hhi⟩ := clamp_mem (x := scaled p a) hle
  rw [BitVec.toNat_ofNat, commandedSpeed, Nat.mod_eq_of_lt (by omega)]
  exact ⟨hlo, hhi⟩

theorem State.Inv.ctlTarget (h : s.Inv) (hr : Runs .ctrl 1 s) (hx : exec .ctlTarget s = .next t) : t.Inv := by
  have hn : s.hpc.ctrl = 1 := hr.atStep
  cases hx
  have sampled : State.Inv { s with
      tAdc := s.adc, cmdSpeed := BitVec.ofNat 16 (commandedSpeed s.cfg s.adc.toNat) } :=
    { h with commanded := fun _ => commandedSpeed_range h.params _ }
  exact sampled.moveCtrl (by decide) (by simp [State.inCritical, hn]) (by decide)
    fun _ => commandedSpeed_range h.params _

theorem State.Inv.csEnter (h : s.Inv) (hr : Runs .ctrl 2 s) (hx : exec .csEnter s = .next t) : t.Inv := by
  obtain ⟨hf, hm, hc⟩ := running_eq_ctrl.mp hr.running
  have hn : s.hpc.ctrl = 2 := hr.atStep
  have hien : s.ien = true := by
    by_contra hi
    rcases h.disabled (by simpa using hi) with hb | hcrit
    · exact h.started (src := .ctrl) hc hb
    · simp [State.inCritical, hn] at hcrit
  cases hx
  exact { h with
    steps := legalStep_set h.steps (by decide)
    background := fun hb => absurd hb (h.started (src := .ctrl) hc)
    disabled := fun _ => .inr (by simp [State.inCritical, hc])
    critical := fun _ => ⟨rfl, hien, hm, hf⟩
    commanded := fun _ => h.commanded (by simp [State.hasTarget, hc, hn]) }

theorem State.Inv.ctlPulses (h : s.Inv) (hr : Runs .ctrl 3 s) (hx : exec .ctlPulses s = .next t) : t.Inv := by
  obtain ⟨-, -, hc⟩ := running_eq_ctrl.mp hr.running
  have hn : s.hpc.ctrl = 3 := hr.atStep
  cases hx
  exact { h with
    steps := legalStep_set h.steps (by decide)
    disabled := fun _ => .inr (by simp [State.inCritical, hc])
    critical := fun _ => h.critical (by simp [State.inCritical, hc, hn])
    pulses := fun _ => rfl
    commanded := fun _ => h.commanded (by simp [State.hasTarget, hc, hn]) }

theorem State.Inv.csExit (h : s.Inv) (hr : Runs .ctrl 4 s) (hx : exec .csExit s = .next t) : t.Inv := by
  obtain ⟨-, -, hc⟩ := running_eq_ctrl.mp hr.running
  have hn : s.hpc.ctrl = 4 := hr.atStep
  obtain ⟨-, hsave, -, -⟩ := h.critical (by simp [State.inCritical, hc, hn])
  cases hx
  exact { h with
    steps := legalStep_set h.steps (by decide)
    background := fun hb => absurd hb (h.started (src := .ctrl) hc)
    disabled := fun hi => absurd hsave (by simpa using hi)
    critical := fun hcrit => by simp [State.inCritical] at hcrit
    commanded := fun _ => h.commanded (by simp [State.hasTarget, hc, hn]) }

theorem State.Inv.ctlMeasure (h : s.Inv) (hr : Runs .ctrl 5 s) (hx : exec .ctlMeasure s = .next t) : t.Inv := by
  obtain ⟨-, -, hc⟩ := running_eq_ctrl.mp hr.running
  have hn : s.hpc.ctrl = 5 := hr.atStep
  cases hx
  have measured : ({ s with measSpeed := BitVec.ofNat 32 (measuredSpeed s.cfg s.tPulses.toNat) } : State).Inv :=
    { h with }
  exact measured.moveCtrl (by decide) (by simp [State.inCritical, hn]) (by decide)
    fun _ => h.commanded (by simp [State.hasTarget, hc, hn])

/-- The steps of `CTL.FMT`, and those that follow them, lie outside the critical section. -/
theorem formatSteps (k : BitVec 5) :
    (1#1 ++ k ≠ 0#6 ∧ 1#1 ++ k ≠ 1#6 ∧ 1#1 ++ k ≠ 3#6 ∧ 1#1 ++ k ≠ 4#6 ∧ 1#1 ++ k ≠ 7#6) ∧
    legalStep .ctrl (formatSuccessor k) = true ∧ formatSuccessor k ≠ 3#6 ∧ formatSuccessor k ≠ 4#6 := by
  revert k
  decide

theorem State.Inv.ctlFmt (h : s.Inv) {k : BitVec 5} (hr : Runs .ctrl (1#1 ++ k) s)
    (hx : exec (.ctlFmt k) s = .next t) : t.Inv := by
  obtain ⟨-, -, hc⟩ := running_eq_ctrl.mp hr.running
  have hn : s.hpc.ctrl = 1#1 ++ k := hr.atStep
  obtain ⟨⟨h0, h1, h3, h4, h7⟩, legal, stays⟩ := formatSteps k
  obtain ⟨n, hdrawn⟩ : ∃ n, (formatCell k.toFin s).2 = { s with draws := n } :=
    (formatCell_snd k.toFin s).elim (fun hs => ⟨s.draws, hs⟩) fun hs => ⟨_, hs⟩
  obtain ⟨u, hu, ⟨⟩⟩ := andThen_next_iff.mp hx
  rw [hdrawn] at hu
  obtain ⟨hlt, rfl⟩ := memWrite_next hu
  have written : State.Inv { s with
      draws := n, fb := Memory.store s.cfg.fbReset s.fb k.toNat (formatCell k.toFin s).1 } :=
    { h with frame := Memory.wf_store hlt _ h.frame }
  exact written.moveCtrl legal (by simp [State.inCritical, hn, h3, h4]) stays
    fun _ => h.commanded (by simp [State.hasTarget, hc, hn, h0, h1, h7])

theorem State.Inv.ctlDuty (h : s.Inv) (hr : Runs .ctrl 6 s) (hx : exec .ctlDuty s = .next t) : t.Inv := by
  have hn : s.hpc.ctrl = 6 := hr.atStep
  cases hx
  have corrected : ∀ d l, ({ s with duty := d, dutyTrace := l } : State).Inv := fun _ _ => { h with }
  exact (corrected _ _).moveCtrl (by decide) (by simp [State.inCritical, hn]) (by decide) (by simp [State.hasTarget])

theorem State.Inv.retCtrl (h : s.Inv) (hr : Runs .ctrl 7 s) (hx : exec .retCtrl s = .next t) : t.Inv := by
  obtain ⟨-, -, hc⟩ := running_eq_ctrl.mp hr.running
  have hn : s.hpc.ctrl = 7 := hr.atStep
  cases hx
  exact { h with
    background := fun hb => absurd hb (h.started (src := .ctrl) hc)
    disabled := fun hi => .inl ((h.disabled hi).resolve_right (by simp [State.inCritical, hn]))
    critical := fun hcrit => by simp [State.inCritical, leaveHandler] at hcrit
    commanded := fun ht => by simp [State.hasTarget, leaveHandler] at ht }

/-! ### The operations of the refresh -/

/-- With the transport idle, `MED` goes on to a step that its cursor fits. -/
theorem State.Inv.moveMed (h : s.Inv) {n : BitVec 6} (idle : s.ts = .idle) (legal : legalStep .med n = true)
    (done : (s.setStep .med n).inRefresh = true → s.initDone = true) (fits : CursorFits n s.cursor.val) :
    (s.setStep .med n).Inv :=
  { h with
    steps := legalStep_set h.steps legal
    transfer := fun hb => absurd idle hb
    refresh := done
    cursorAt := fun _ => fits }

/-- `MED` issues a word, and waits for the transport. -/
theorem State.Inv.issueMed (h : s.Inv) {n : BitVec 6} (hrun : s.running = .med) (waits : n = 2#6 ∨ n = 4#6 ∨ n = 6#6)
    (done : s.initDone = true) (fits : CursorFits n s.cursor.val) (rs : Bool) (b : Byte) :
    ((s.issued rs b).setStep .med n).Inv :=
  { h with
    steps := legalStep_set h.steps (by rcases waits with rfl | rfl | rfl <;> decide)
    transfer := fun _ => by
      obtain ⟨hf, hm⟩ := running_eq_med.mp hrun
      refine transfer_of_refresh (by simp [State.atInitWait, State.issued, hf]) ?_
      rcases waits with rfl | rfl | rfl <;> simp [State.atRefreshWait, State.issued, hm]
    readWrite := issuedWord_readWrite rs b
    refresh := fun _ => done
    cursorAt := fun _ => fits }

/-- The refresh of one tick ends, with the cursor moved. -/
theorem State.Inv.finishMed (h : s.Inv) (idle : s.ts = .idle) (done : s.initDone = true) (c : Fin 33) :
    ((s.withCursor c).setStep .med 7).Inv :=
  { h with
    steps := legalStep_set h.steps (by decide)
    transfer := fun hb => absurd idle hb
    refresh := fun _ => done
    cursorAt := fun _ => by simp
    cursorStart := fun hd => absurd done (by simpa [State.withCursor] using hd) }

/-- Between `RFR.SEL` and `RET.MED` init is complete. -/
theorem State.Inv.done_of_refresh (h : s.Inv) (ha : s.act.med = true) (hlo : 1 ≤ s.hpc.med.toNat)
    (hhi : s.hpc.med.toNat ≤ 6) : s.initDone = true :=
  h.refresh (by simp [State.inRefresh, ha, hlo, hhi])

/-- Where `MED` runs and does not wait, the transport is idle. -/
theorem State.Inv.idle_of_med (h : s.Inv) (hrun : s.running = .med)
    (hn : s.hpc.med ≠ 2#6 ∧ s.hpc.med ≠ 4#6 ∧ s.hpc.med ≠ 6#6) : s.ts = .idle := by
  obtain ⟨hf, -⟩ := running_eq_med.mp hrun
  exact h.idle_of_not_waiting (by simp [State.atInitWait, hf]) (by simp [State.atRefreshWait, hn])

/-- The branch of `RFR.SEL` is a listed step that the cursor fits, and is taken into the refresh only after completion
(41_display_refresh.md rule R131). -/
theorem refreshBranch_spec (s : State) :
    legalStep .med (refreshBranch s) = true ∧ CursorFits (refreshBranch s) s.cursor.val ∧
    (refreshBranch s = 7#6 ∨ s.initDone = true) := by
  have hc := s.cursor.isLt
  unfold refreshBranch
  split_ifs with hd hend hline
  · simp [legalStep, CursorFits]
  · simpa [legalStep, CursorFits, hend] using hd
  · simpa [legalStep, CursorFits, hline] using hd
  · have hle : s.cursor.val ≤ 31 := by
      have : s.cursor.val ≠ 32 := hend
      omega
    simpa [legalStep, CursorFits, hle] using hd

theorem State.Inv.rfrSel (h : s.Inv) (hr : Runs .med 0 s) (hx : exec .rfrSel s = .next t) : t.Inv := by
  have hn : s.hpc.med = 0 := hr.atStep
  obtain ⟨legal, fits, done⟩ := refreshBranch_spec s
  cases hx
  refine h.moveMed (h.idle_of_med hr.running (by simp [hn])) legal (fun hin => done.resolve_left fun h7 => ?_) fits
  simp [State.inRefresh, h7] at hin

theorem State.Inv.rfrHome (h : s.Inv) (hr : Runs .med 1 s) (hx : exec .rfrHome s = .next t) : t.Inv := by
  obtain ⟨-, hm⟩ := running_eq_med.mp hr.running
  have hn : s.hpc.med = 1 := hr.atStep
  obtain ⟨fits, -, -⟩ := h.cursorAt hm
  rw [exec_rfrHome (h.idle_of_med hr.running (by simp [hn]))] at hx
  cases hx
  exact h.issueMed hr.running (.inl rfl) (h.done_of_refresh hm (by simp [hn]) (by simp [hn]))
    (by simp [CursorFits, fits (.inl hn)]) _ _

theorem State.Inv.rfrHomew (h : s.Inv) (hr : Runs .med 2 s) (idle : s.ts = .idle) (hx : exec .rfrHomew s = .next t) :
    t.Inv := by
  obtain ⟨-, hm⟩ := running_eq_med.mp hr.running
  have hn : s.hpc.med = 2 := hr.atStep
  rw [exec_rfrHomew idle] at hx
  cases hx
  exact h.finishMed idle (h.done_of_refresh hm (by simp [hn]) (by simp [hn])) 0

theorem State.Inv.rfrLine2 (h : s.Inv) (hr : Runs .med 3 s) (hx : exec .rfrLine2 s = .next t) : t.Inv := by
  obtain ⟨-, hm⟩ := running_eq_med.mp hr.running
  have hn : s.hpc.med = 3 := hr.atStep
  obtain ⟨-, fits, -⟩ := h.cursorAt hm
  rw [exec_rfrLine2 (h.idle_of_med hr.running (by simp [hn]))] at hx
  cases hx
  exact h.issueMed hr.running (.inr (.inl rfl)) (h.done_of_refresh hm (by simp [hn]) (by simp [hn]))
    (by simp [CursorFits, fits (.inl hn)]) _ _

theorem State.Inv.rfrLine2w (h : s.Inv) (hr : Runs .med 4 s) (idle : s.ts = .idle) (hx : exec .rfrLine2w s = .next t) :
    t.Inv := by
  obtain ⟨-, hm⟩ := running_eq_med.mp hr.running
  have hn : s.hpc.med = 4 := hr.atStep
  obtain ⟨-, fits, -⟩ := h.cursorAt hm
  rw [exec_rfrLine2w idle] at hx
  cases hx
  exact h.moveMed idle (by decide) (fun _ => h.done_of_refresh hm (by simp [hn]) (by simp [hn]))
    (by simp [CursorFits, fits (.inr hn)])

theorem State.Inv.rfrChar (h : s.Inv) (hr : Runs .med 5 s) (hx : exec .rfrChar s = .next t) : t.Inv := by
  obtain ⟨-, hm⟩ := running_eq_med.mp hr.running
  have hn : s.hpc.med = 5 := hr.atStep
  obtain ⟨-, -, fits⟩ := h.cursorAt hm
  have hc : s.cursor.val ≤ 31 := fits (.inl hn)
  rw [exec_rfrChar (h.idle_of_med hr.running (by simp [hn])) (by omega)] at hx
  cases hx
  have read : (s.withByte s.cursorByte).Inv := { h with }
  exact read.issueMed hr.running (.inr (.inr rfl)) (h.done_of_refresh hm (by simp [hn]) (by simp [hn]))
    (by simpa [CursorFits, State.withByte] using hc) _ _

theorem State.Inv.rfrCharw (h : s.Inv) (hr : Runs .med 6 s) (idle : s.ts = .idle) (hx : exec .rfrCharw s = .next t) :
    t.Inv := by
  obtain ⟨-, hm⟩ := running_eq_med.mp hr.running
  have hn : s.hpc.med = 6 := hr.atStep
  obtain ⟨-, -, fits⟩ := h.cursorAt hm
  have hc : s.cursor.val ≤ 31 := fits (.inr hn)
  rw [exec_rfrCharw idle (by omega)] at hx
  cases hx
  exact h.finishMed idle (h.done_of_refresh hm (by simp [hn]) (by simp [hn])) _

theorem State.Inv.retMed (h : s.Inv) (hr : Runs .med 7 s) (hx : exec .retMed s = .next t) : t.Inv := by
  obtain ⟨-, hm⟩ := running_eq_med.mp hr.running
  have hn : s.hpc.med = 7 := hr.atStep
  have idle : s.ts = .idle := h.idle_of_med hr.running (by simp [hn])
  cases hx
  exact { h with
    background := fun hb => absurd hb (h.started (src := .med) hm)
    critical := fun hc => (h.critical hc).imp_right fun ⟨hsave, _, hfast⟩ => ⟨hsave, rfl, hfast⟩
    transfer := fun hb => absurd idle hb
    refresh := fun hin => by simp [State.inRefresh, leaveHandler] at hin
    cursorAt := fun ha => by simp [leaveHandler] at ha }

/-! ### The operations of the init sequence -/

/-- Before completion, and with no command being sent, `INIT_MS` is below the last entry. -/
theorem State.Inv.before_last (h : s.Inv) (hc : s.inCommand = false) (hd : s.initDone = false) :
    s.initMs.toNat < s.cfg.schedT[7].toNat :=
  (h.progress hd).resolve_right fun hin => by simp [hc] at hin

/-- A tick is counted, and `FAST` goes on to `INI.CMD` or to its return. -/
theorem State.Inv.counted (h : s.Inv) {i : Fin 8} {n : BitVec 6} (hn : s.hpc.fast = 0#6) (hd : s.initDone = false)
    (legal : legalStep .fast n = true) (stays : n ≠ 2#6)
    (command : ((s.counted i).setStep .fast n).inCommand = true → s.initMs + 1 = s.cfg.schedT[i])
    (progress : (s.counted i).initMs.toNat < s.cfg.schedT[7].toNat ∨
      (((s.counted i).setStep .fast n).inCommand = true ∧ i = 7)) : ((s.counted i).setStep .fast n).Inv :=
  { h with
    steps := legalStep_set h.steps legal
    transfer := fun hb => transfer_of_refresh (by simp [State.atInitWait, stays])
      (h.refresh_waits (by simp [State.atInitWait, hn]) hb)
    command := fun hc => ⟨hd, command hc⟩
    complete := fun hd' => absurd hd' (by simp [State.counted, hd])
    progress := fun _ => progress }

theorem State.Inv.iniTick (h : s.Inv) (hr : Runs .fast 0 s) (hx : exec .iniTick s = .next t) : t.Inv := by
  have ha : s.act.fast = true := running_eq_fast.mp hr.running
  have hn : s.hpc.fast = 0 := hr.atStep
  have hc : s.inCommand = false := by simp [State.inCommand, hn]
  rcases iniTick_next hx with ⟨hd, rfl⟩ | ⟨hd, hlt, ⟨i, hm, rfl⟩ | ⟨hm, rfl⟩⟩
  · exact { h with
      steps := legalStep_set h.steps (by decide)
      transfer := fun hb => transfer_of_refresh (by simp [State.atInitWait])
        (h.refresh_waits (by simp [State.atInitWait, hn]) hb)
      command := fun hin => by simp [State.inCommand] at hin
      progress := fun hd' => absurd hd' (by simp [hd]) }
  · have hi : s.cfg.schedT[i] = s.initMs + 1 := scheduleMatch_some hm
    refine h.counted hn hd (by decide) (by decide) (fun _ => hi.symm) ?_
    by_cases hlast : i = 7
    · exact .inr ⟨by simp [State.inCommand, State.counted, ha], hlast⟩
    · have hrise : s.cfg.schedT[i].toNat < s.cfg.schedT[(7 : Fin 8)].toNat :=
        schedT_strictMono h.params (lt_of_le_of_ne (Fin.le_last i) hlast)
      rw [hi] at hrise
      exact .inl hrise
  · have hne : s.cfg.schedT[(7 : Fin 8)] ≠ s.initMs + 1 := scheduleMatch_none hm 7
    have hbelow := h.before_last hc hd
    have hcount := counted_initMs hlt s.tSel
    refine h.counted hn hd (by decide) (by decide) (fun hin => by simp [State.inCommand] at hin) (.inl ?_)
    have hne' : (s.counted s.tSel).initMs.toNat ≠ s.cfg.schedT[7].toNat := fun e => hne (BitVec.eq_of_toNat_eq e.symm)
    omega

theorem State.Inv.iniCmd (h : s.Inv) (hr : Runs .fast 1 s) (hx : exec .iniCmd s = .next t) : t.Inv := by
  have ha : s.act.fast = true := running_eq_fast.mp hr.running
  have hn : s.hpc.fast = 1 := hr.atStep
  have hc : s.inCommand = true := by simp [State.inCommand, ha, hn]
  obtain ⟨hd, -⟩ := h.command hc
  have hw : s.atRefreshWait = false := h.not_atRefreshWait hd
  rw [exec_iniCmd (h.idle_at_iniCmd ha hn)] at hx
  cases hx
  exact { h with
    steps := legalStep_set h.steps (by decide)
    transfer := fun _ => transfer_of_command (by simp [State.atInitWait, State.issued, ha]) hw
    readWrite := issuedWord_readWrite _ _
    command := fun _ => h.command hc
    progress := fun hd' => (h.progress hd').imp_right fun ⟨_, hsel⟩ =>
      ⟨by simp [State.inCommand, State.issued, ha], hsel⟩ }

theorem State.Inv.iniCmdw (h : s.Inv) (hr : Runs .fast 2 s) (idle : s.ts = .idle) (hx : exec .iniCmdw s = .next t) :
    t.Inv := by
  have ha : s.act.fast = true := running_eq_fast.mp hr.running
  have hn : s.hpc.fast = 2 := hr.atStep
  obtain ⟨hd, hms⟩ := h.command (by simp [State.inCommand, ha, hn])
  have hdone : s.completed.initDone = decide (s.tSel = 7) := by simp [State.completed, hd]
  rw [exec_iniCmdw idle] at hx
  cases hx
  exact { h with
    steps := legalStep_set h.steps (by decide)
    transfer := fun hb => absurd idle hb
    command := fun hin => by simp [State.inCommand] at hin
    complete := fun hd' => by
      have hlast : s.tSel = 7 := of_decide_eq_true (hdone.symm.trans hd')
      exact hms.trans (congrArg (fun i : Fin 8 => s.cfg.schedT[i]) hlast)
    progress := fun hd' => by
      have hlast : s.tSel ≠ 7 := of_decide_eq_false (hdone.symm.trans hd')
      have hrise := schedT_strictMono h.params (lt_of_le_of_ne (Fin.le_last s.tSel) hlast)
      exact .inl (hms ▸ hrise)
    refresh := fun hin => absurd (h.refresh hin) (by simp [hd])
    cursorStart := fun _ => h.cursorStart hd
    pulses := fun _ => h.pulses hd }

theorem State.Inv.retFast (h : s.Inv) (hr : Runs .fast 3 s) (hx : exec .retFast s = .next t) : t.Inv := by
  have ha : s.act.fast = true := running_eq_fast.mp hr.running
  have hn : s.hpc.fast = 3 := hr.atStep
  cases hx
  exact { h with
    background := fun hb => absurd hb (h.started (src := .fast) ha)
    critical := fun hc => (h.critical hc).imp_right fun ⟨hsave, hmed, _⟩ => ⟨hsave, hmed, rfl⟩
    transfer := fun hb => transfer_of_refresh (by simp [State.atInitWait, leaveHandler])
      (h.refresh_waits (by simp [State.atInitWait, hn]) hb)
    command := fun hin => by simp [State.inCommand, leaveHandler] at hin
    progress := fun hd => .inl (h.before_last (by simp [State.inCommand, hn]) hd) }

/-! ### The transport -/

/-- A transaction in flight goes on to its next phase. -/
theorem State.Inv.nextPhase (h : s.Inv) (hb : s.ts ≠ .idle) (p : Phase) (l : List (Bool × Byte)) :
    ({ s with ts := p, lcdTrace := l } : State).Inv :=
  { h with transfer := fun _ => h.transfer hb }

/-- A transfer that completes leaves no handler to wait for. -/
theorem State.Inv.completeTransfer (h : s.Inv) : (completeTransfer s).Inv := by
  rcases completeTransfer_cases s with ⟨-, e⟩ | ⟨-, e⟩ <;> rw [e]
  · exact { h with transfer := fun hb => absurd rfl hb }
  · exact h

theorem State.Inv.phase (h : s.Inv) {i : Instr} (hf : fetchTransport s = .ok i) (hx : exec i s = .next t) : t.Inv := by
  rcases fetchTransport_ok hf with ⟨hts, rfl⟩ | ⟨hts, rfl⟩ | ⟨-, rfl⟩
  · cases hx
    exact h.nextPhase (by simp [hts]) .ehi s.lcdTrace
  · cases hx
    exact h.nextPhase (by simp [hts]) .settle _
  · cases hx
    exact h.completeTransfer

/-! ### The events -/

/-- The start of the background enables interrupts (45_scheduler.md rule R211). -/
theorem State.Inv.startBackground (h : s.Inv) : (startBackground s).Inv := by
  rcases startBackground_cases s with ⟨hb, e⟩ | ⟨-, e⟩ <;> rw [e]
  · obtain ⟨-, hact⟩ := h.background hb
    exact { h with
      steps := legalStep_set (c := .bg) h.steps (by decide)
      background := fun hb' => by simp at hb'
      disabled := nofun
      critical := fun hc => by simp [State.inCritical, hact] at hc }
  · exact h

theorem State.Inv.event (h : s.Inv) {i : Instr} (hi : i ∈ eventOps) (hx : exec i s = .next t) : t.Inv := by
  simp only [eventOps, List.mem_cons, List.not_mem_nil, or_false] at hi
  have tick : ∀ src, (latchTick src s).Inv := fun _ => { h with }
  rcases hi with rfl | rfl | rfl | rfl | rfl | rfl <;> cases hx
  · exact tick .fast
  · exact tick .med
  · exact tick .ctrl
  · split
    · next hd => exact { h with pulses := fun hd' => absurd hd (by simpa using hd') }
    · exact h
  · exact h.completeTransfer
  · exact h.startBackground

/-! ### The dispatches -/

/-- What the arbiter selects is pending above the running context, with interrupts enabled (00_scope.md rule R13). -/
theorem dispatchRule_some {src : Source} (h : dispatchRule s = some src) :
    s.ien = true ∧ s.running.prio < src.context.prio := by
  have hw : wantsDispatch s src = true := List.find?_some h
  simp only [wantsDispatch, Bool.and_eq_true, decide_eq_true_eq] at hw
  obtain ⟨⟨hien, -⟩, hprio⟩ := hw
  exact ⟨hien, hprio⟩

/-- An active handler is at most as high as the running context (45_scheduler.md rule R206). -/
theorem prio_le_running {src : Source} (h : s.act.get src = true) : src.context.prio ≤ s.running.prio := by
  cases src
  case fast => rw [running_eq_fast.mpr h]; exact Nat.le_refl _
  case med =>
    cases hf : s.act.fast
    · rw [running_eq_med.mpr ⟨hf, h⟩]; exact Nat.le_refl _
    · rw [running_eq_fast.mpr hf]; decide
  case ctrl =>
    cases hrun : s.running
    case bg =>
      obtain ⟨-, -, hc⟩ := running_eq_bg.mp hrun
      exact absurd (h.symm.trans hc) (by decide)
    all_goals decide

/-- No handler is active at or above a source that is above the running context. -/
theorem not_active_of_prio_lt {src above : Source} (h : s.running.prio < src.context.prio)
    (hle : src.context.prio ≤ above.context.prio) : s.act.get above = false := by
  by_contra ha
  have := prio_le_running (by simpa using ha)
  omega

theorem State.Inv.dispatch (h : s.Inv) {src : Source} (hd : dispatchRule s = some src) : (enterHandler src s).Inv := by
  obtain ⟨hien, hprio⟩ := dispatchRule_some hd
  have outside : s.inCritical ≠ true := fun hc => by
    obtain ⟨hoff, -⟩ := h.critical hc
    exact absurd hien (by simp [hoff])
  have steps := legalStep_set (c := src.context) (n := 0) h.steps (by cases src <;> decide)
  have background : s.hpc.bg ≠ 0 := fun hb => by
    obtain ⟨hoff, -⟩ := h.background hb
    exact absurd hien (by simp [hoff])
  have hf : s.act.fast = false := not_active_of_prio_lt hprio (above := .fast) (by cases src <;> decide)
  have noInitWait : s.atInitWait = false := by simp [State.atInitWait, hf]
  cases src
  case ctrl =>
    exact { h with
      steps := steps
      background := fun hb => absurd hb background
      disabled := fun hi => absurd hien (by simpa [enterHandler] using hi)
      critical := fun hc => by simp [State.inCritical, enterHandler, Source.context] at hc
      commanded := fun ht => by simp [State.hasTarget, enterHandler, Source.context] at ht }
  case med =>
    have hm : s.act.med = false := not_active_of_prio_lt hprio (above := .med) (Nat.le_refl _)
    have idle : s.ts = .idle := h.idle_of_not_waiting noInitWait (by simp [State.atRefreshWait, hm])
    exact { h with
      steps := steps
      background := fun hb => absurd hb background
      disabled := fun hi => absurd hien (by simpa [enterHandler] using hi)
      critical := fun hc => absurd hc outside
      transfer := fun hb => absurd idle hb
      refresh := fun hin => by simp [State.inRefresh, enterHandler, Source.context] at hin
      cursorAt := fun _ => by simp [enterHandler, Source.context] }
  case fast =>
    exact { h with
      steps := steps
      background := fun hb => absurd hb background
      disabled := fun hi => absurd hien (by simpa [enterHandler] using hi)
      critical := fun hc => absurd hc outside
      transfer := fun hb => transfer_of_refresh (by simp [State.atInitWait, enterHandler, Source.context])
        (h.refresh_waits noInitWait hb)
      command := fun hin => by simp [State.inCommand, enterHandler, Source.context] at hin
      progress := fun hd => .inl (h.before_last (by simp [State.inCommand, hf]) hd) }

end Operations

/-! ### The machine -/

/-- The machine runs the context whose operation it fetches. -/
theorem runs_of_decodeSt {s : State} {c : Context} {n : BitVec 6} {i : Instr} (hr : s.rstActive = false)
    (hd : dispatchRule s = none) (h : decodeSt (stateCode s) = .ok i)
    (hi : encode Params.refEx i = .st (c.code ++ n)) : Runs c n s :=
  have ⟨hrun, hn⟩ := stands_of_decodeSt h hi
  ⟨hr, hd, hrun, hn⟩

theorem encode_ctlFmt (k : BitVec 5) : encode Params.refEx (.ctlFmt k) = .st (Context.ctrl.code ++ (1#1 ++ k)) := by
  revert k
  decide

/-- The operation of a running sequencer keeps the invariant. -/
theorem State.Inv.sequencer {s t : State} (h : s.Inv) {i : Instr} (hr : s.rstActive = false)
    (hd : dispatchRule s = none) (hi : decodeSt (stateCode s) = .ok i) (he : enabled i s = true)
    (hx : exec i s = .next t) : t.Inv := by
  have runs : ∀ {c n}, encode Params.refEx i = .st (c.code ++ n) → Runs c n s := runs_of_decodeSt hr hd hi
  have hcode := encode_of_decodeSt hi
  cases i
  case bgStart => cases he
  case bgIdle =>
    cases hx
    exact (setStep_self (runs (c := .bg) (n := 1) rfl).atStep).symm ▸ h
  case ctlDiv => exact h.ctlDiv (runs rfl) hx
  case ctlTarget => exact h.ctlTarget (runs rfl) hx
  case csEnter => exact h.csEnter (runs rfl) hx
  case ctlPulses => exact h.ctlPulses (runs rfl) hx
  case csExit => exact h.csExit (runs rfl) hx
  case ctlMeasure => exact h.ctlMeasure (runs rfl) hx
  case ctlFmt k => exact h.ctlFmt (runs (encode_ctlFmt k)) hx
  case ctlDuty => exact h.ctlDuty (runs rfl) hx
  case retCtrl => exact h.retCtrl (runs rfl) hx
  case rfrSel => exact h.rfrSel (runs rfl) hx
  case rfrHome => exact h.rfrHome (runs rfl) hx
  case rfrHomew => exact h.rfrHomew (runs rfl) (of_decide_eq_true he) hx
  case rfrLine2 => exact h.rfrLine2 (runs rfl) hx
  case rfrLine2w => exact h.rfrLine2w (runs rfl) (of_decide_eq_true he) hx
  case rfrChar => exact h.rfrChar (runs rfl) hx
  case rfrCharw => exact h.rfrCharw (runs rfl) (of_decide_eq_true he) hx
  case retMed => exact h.retMed (runs rfl) hx
  case iniTick => exact h.iniTick (runs rfl) hx
  case iniCmd => exact h.iniCmd (runs rfl) hx
  case iniCmdw => exact h.iniCmdw (runs rfl) (of_decide_eq_true he) hx
  case retFast => exact h.retFast (runs rfl) hx
  all_goals cases hcode

/-- The block's own operations keep the invariant. -/
theorem State.Inv.own {s t : State} (h : s.Inv) {i : Instr} (hi : OwnOperation i s) (hx : exec i s = .next t) :
    t.Inv := by
  obtain ⟨hr, hf | hf, he⟩ := hi
  · rcases fetchMachine_ok hf with ⟨src, hd, rfl⟩ | ⟨hd, hi⟩
    · rw [exec_dispatchOf] at hx
      cases hx
      exact h.dispatch hd
    · exact h.sequencer hr hd hi he hx
  · exact h.phase hf hx

/-- A reset gives the invariant, from any state with a valid record. -/
theorem inv_resetRegisters {s : State} (hv : s.cfg.valid = true) : (resetRegisters s).Inv :=
  inv_of_holdsReset hv rfl (holdsReset_resetRegisters s)

/-- Settles O54: every turn keeps the invariant, and a reset gives it anew. -/
theorem stepKeepsTheInvariant : Obligations.StepKeepsTheInvariant := by
  intro s t h hx
  have kept : TakesReset s t ∨ t.Inv :=
    step_rule hx h.withAgenda (fun _ _ => { h with }) (fun _ => { h with }) (fun _ hi _ _ _ hu => hu.event hi)
      fun i rest hown => (h.withAgenda rest).own hown
  rcases kept with ⟨w, rest, -, -, rfl⟩ | kept
  · exact inv_resetRegisters h.params
  · exact kept

end Sys2Proof.Machine
end

section
/-! The statements about the memory: the frame that the control loop renders (O31), the pulse count (O28), the character
at the cursor (O37) and the scheduled command (O42). -/

namespace Sys2Proof.Machine

/-! ### Storing to the frame (20_memory.md rules R65 and R166) -/

/-- The state with byte `v` in cell `a`. -/
def State.withCell (s : State) (a : Nat) (v : Byte) : State :=
  { s with fb := Memory.store s.cfg.fbReset s.fb a v }

theorem memWrite_of_lt {a : Nat} (h : a < frameLength) (v : Byte) (s : State) : memWrite a v s = .next (s.withCell a v) :=
  if_pos h

theorem memRead_withCell {a : Nat} (h : a < frameLength) (v : Byte) (s : State) (b : Nat) :
    memRead (s.withCell a v) b = if b = a then some v else memRead s b :=
  memRead_after_memWrite (memWrite_of_lt h v s) b

/-- `CTL.FMT k` stores its byte in cell `k`, which exists, and goes on. -/
theorem exec_ctlFmt (k : BitVec 5) (s : State) :
    exec (.ctlFmt k) s =
      .next (((formatCell k.toFin s).2.withCell k.toNat (formatCell k.toFin s).1).setStep .ctrl (formatSuccessor k)) := by
  simp only [exec, execCtlFmt, memWrite_of_lt k.isLt, andThen_next]

/-! ### The frame that the two speeds render (20_memory.md rule R62, 43_control_loop.md rule R170) -/

/-- Cell `a` of the frame that shows the speeds `cmd` and `meas`, each of at most four digits. -/
def renderedByte (cmd meas : Nat) (a : Fin 32) : Byte :=
  if a.val ≤ 11 ∨ (16 ≤ a.val ∧ a.val ≤ 27) then textTemplate[a]
  else if a.val ≤ 15 then digitCode (digit cmd (a.val - 12))
  else digitCode (digit meas (a.val - 28))

/-- With the measured speed in four digits nothing is drawn (43_control_loop.md rule R167). -/
theorem formatCell_of_le {s : State} (h : s.measSpeed.toNat ≤ 9999) (a : Fin 32) :
    formatCell a s = (renderedByte s.cmdSpeed.toNat s.measSpeed.toNat a, s) := by
  unfold formatCell renderedByte
  split
  · rfl
  · split
    · rfl
    · exact if_pos h

theorem digitCode_toNat {d : Nat} (h : d < 10) : (digitCode d).toNat = 0x30 + d :=
  Nat.mod_eq_of_lt (by omega)

theorem digitCode_digit (v k : Nat) : (digitCode (digit v k)).toNat = 0x30 + v / 10 ^ (3 - k) % 10 :=
  digitCode_toNat (Nat.mod_lt _ (by decide))

section Rendered
variable {cmd meas : Nat} {a : Fin 32}

theorem renderedByte_text (h : a.val ≤ 11 ∨ (16 ≤ a.val ∧ a.val ≤ 27)) : renderedByte cmd meas a = textTemplate[a] :=
  if_pos h

theorem renderedByte_cmd (hlo : 12 ≤ a.val) (hhi : a.val ≤ 15) :
    (renderedByte cmd meas a).toNat = 0x30 + cmd / 10 ^ (15 - a.val) % 10 := by
  have hexp : 3 - (a.val - 12) = 15 - a.val := by omega
  rw [renderedByte, if_neg (by omega), if_pos hhi, digitCode_digit, hexp]

theorem renderedByte_meas (hlo : 28 ≤ a.val) :
    (renderedByte cmd meas a).toNat = 0x30 + meas / 10 ^ (31 - a.val) % 10 := by
  have hexp : 3 - (a.val - 28) = 31 - a.val := by omega
  rw [renderedByte, if_neg (by omega), if_neg (by omega), digitCode_digit, hexp]

end Rendered

/-- `t` shows the speeds of `s` in the cells before `n`, and still holds those speeds. -/
structure RendersBefore (n : Nat) (s t : State) : Prop where
  cmdSpeed : t.cmdSpeed = s.cmdSpeed
  measSpeed : t.measSpeed = s.measSpeed
  cells : ∀ a : Fin 32, a.val < n → memRead t a.val = some (renderedByte s.cmdSpeed.toNat s.measSpeed.toNat a)

/-- `CTL.FMT n` renders one cell more, and keeps those before it. -/
theorem RendersBefore.ctlFmt {n : Nat} {s t : State} (h : RendersBefore n s t) (hn : n < 32)
    (hm : s.measSpeed.toNat ≤ 9999) :
    ∃ u, exec (.ctlFmt (BitVec.ofNat 5 n)) t = .next u ∧ u.hpc.ctrl = formatSuccessor (BitVec.ofNat 5 n) ∧
      RendersBefore (n + 1) s u := by
  have hcell : (BitVec.ofNat 5 n).toFin = (⟨n, hn⟩ : Fin 32) := Fin.ext (Nat.mod_eq_of_lt hn)
  have hindex : (BitVec.ofNat 5 n).toNat = n := Nat.mod_eq_of_lt hn
  rw [exec_ctlFmt, hcell, hindex, formatCell_of_le (h.measSpeed ▸ hm), h.cmdSpeed, h.measSpeed]
  refine ⟨_, rfl, rfl, h.cmdSpeed, h.measSpeed, fun a ha => (memRead_withCell hn _ t a.val).trans ?_⟩
  split
  · next heq => rw [← Fin.ext (b := ⟨n, hn⟩) heq]
  · next hne => exact h.cells a (by omega)

/-- The first `n` operations of the format. -/
def formatOps (n : Nat) : List Instr := (List.range n).map fun k => .ctlFmt (BitVec.ofNat 5 k)

theorem formatOps_succ (n : Nat) : formatOps (n + 1) = formatOps n ++ [.ctlFmt (BitVec.ofNat 5 n)] := by
  rw [formatOps, List.range_succ, List.map_append]
  rfl

/-- One more operation of the format renders one cell more. -/
theorem RendersBefore.formatOps_succ {n : Nat} {s t : State} (h : RendersBefore n s t)
    (ht : execAll (formatOps n) s = .next t) (hn : n < 32) (hm : s.measSpeed.toNat ≤ 9999) :
    ∃ u, execAll (formatOps (n + 1)) s = .next u ∧ u.hpc.ctrl = formatSuccessor (BitVec.ofNat 5 n) ∧
      RendersBefore (n + 1) s u := by
  obtain ⟨u, hu, next, more⟩ := h.ctlFmt hn hm
  rw [Machine.formatOps_succ]
  exact ⟨u, execAll_append_next ht ((execAll_singleton _ _).trans hu), next, more⟩

theorem execAll_formatOps {n : Nat} {s : State} (hn : n ≤ 32) (hm : s.measSpeed.toNat ≤ 9999) :
    ∃ t, execAll (formatOps n) s = .next t ∧ RendersBefore n s t := by
  induction n with
  | zero => exact ⟨s, rfl, rfl, rfl, nofun⟩
  | succ n ih =>
    obtain ⟨t, ht, rendered⟩ := ih (by omega)
    obtain ⟨u, hu, -, more⟩ := rendered.formatOps_succ ht hn hm
    exact ⟨u, hu, more⟩

/-- Settles O31: each operation renders its cell from speeds that none of them writes, and the last goes on to
`CTL.DUTY`. -/
theorem fullFormatRendersBothSpeeds : Obligations.FullFormatRendersBothSpeeds := by
  refine ⟨by decide, fun s _ hm => ?_⟩
  obtain ⟨t, ht, rendered⟩ := execAll_formatOps (n := 31) (by omega) hm
  obtain ⟨u, hu, next, all⟩ := rendered.formatOps_succ ht (by omega) hm
  exact ⟨u, hu, next, fun a => ⟨_, all.cells a a.isLt, renderedByte_text, renderedByte_cmd, renderedByte_meas⟩⟩

/-! ### The pulse count (20_memory.md rule R73) -/

/-- Settles O28: the read and the clear are one update of the state. -/
theorem pulseCountIsReadAndCleared : Obligations.PulseCountIsReadAndCleared :=
  ⟨rfl, fun _ => rfl⟩

/-! ### The character at the cursor (20_memory.md rule R67) -/

theorem memRead_of_ge {s : State} {a : Nat} (h : frameLength ≤ a) : memRead s a = none :=
  if_neg (Nat.not_lt.mpr h)

/-- Settles O37: inside the frame the byte read is the byte issued, and past it there is no cell. -/
theorem characterIsReadAndIssued : Obligations.CharacterIsReadAndIssued := by
  refine ⟨rfl, fun s idle hc => ?_, fun s hc => ?_⟩
  · have inside : s.cursor.val < 32 := by omega
    exact ⟨s.cursorByte, memRead_cursor inside, exec_rfrChar idle inside⟩
  · have noCell : memRead s s.cursor.val = none := memRead_of_ge hc.ge
    simp only [exec, execRfrChar, noCell]

/-! ### The scheduled command (20_memory.md rule R64) -/

theorem scheduleCommand_of_le_three (p : Params) {i : Fin 8} (h : i.val ≤ 3) :
    scheduleCommand p i = p.cmdFunctionSet := by
  have first : i = 0 ∨ i = 1 ∨ i = 2 ∨ i = 3 := by omega
  rcases first with rfl | rfl | rfl | rfl <;> rfl

/-- `INI.CMD` issues the byte of its entry and goes on, whatever the phase of the transport. -/
theorem exec_iniCmd_eq_issue (s : State) :
    exec .iniCmd s =
      andThen (issue false (scheduleCommand s.cfg s.tSel) s) fun t => .next { t with hpc := { t.hpc with fast := 2 } } :=
  rfl

/-- `i` is the transport word of schedule entry `n` (30_encoding.md rule R91). -/
def IsEntryWord (n : Fin 8) (i : Instr) : Prop :=
  (n.val ≤ 3 ∧ i = .lcdFuncset) ∨ (n = 4 ∧ i = .lcdDispoff) ∨ (n = 5 ∧ i = .lcdClear) ∨
    (n = 6 ∧ i = .lcdEntrymode) ∨ (n = 7 ∧ i = .lcdDispon)

/-- The word of an entry issues the byte of that entry. -/
theorem IsEntryWord.exec_eq_issue {s : State} {i : Instr} (h : IsEntryWord s.tSel i) :
    exec i s = issue false (scheduleCommand s.cfg s.tSel) s := by
  rcases h with ⟨hle, rfl⟩ | ⟨hn, rfl⟩ | ⟨hn, rfl⟩ | ⟨hn, rfl⟩ | ⟨hn, rfl⟩
  · rw [scheduleCommand_of_le_three s.cfg hle]
    rfl
  all_goals
    rw [hn]
    rfl

/-- Settles O42: the operation and the word of its entry issue the same byte. -/
theorem initCommandIssuesTheScheduledWord : Obligations.InitCommandIssuesTheScheduledWord := by
  refine ⟨rfl, fun s idle => exec_iniCmd idle,
    fun p => ⟨fun i => scheduleCommand_of_le_three p, rfl, rfl, rfl, rfl⟩, fun s i word => ?_⟩
  rw [exec_iniCmd_eq_issue, IsEntryWord.exec_eq_issue word]

end Sys2Proof.Machine
end

section
/-! The statements about the five formats of 30_encoding.md: O1 to O4 and O48. -/

namespace Sys2Proof.Machine

/-! ### The transport word (rules R90 and R91) -/

/-- The fields of the word `{RS, RW, D}`. -/
theorem transportWord_fields (mode : BitVec 2) (b : Byte) :
    (mode ++ b)[9] = mode[1] ∧ (mode ++ b)[8] = mode[0] ∧ (mode ++ b).extractLsb' 0 8 = b :=
  ⟨BitVec.getElem_append .., BitVec.getElem_append .., BitVec.extractLsb'_append_eq_right⟩

/-- A data word is the byte it carries, under every record. -/
theorem decodeTw_data (p : Params) (d : Byte) : decodeTw p (0b10#2 ++ d) = .ok (.lcdData d) := by
  obtain ⟨hrs, hrw, hd⟩ := transportWord_fields 0b10#2 d
  simp [decodeTw, hrs, hrw, hd]

/-- A command word is the first command of rule R91 whose parameter is its byte. -/
theorem decodeTw_command {p : Params} {b : Byte} {i : Instr}
    (first : commandWords.find? (fun j => decide (j.commandByte p = some b)) = some i) :
    decodeTw p (0b00#2 ++ b) = .ok i := by
  obtain ⟨hrs, hrw, hd⟩ := transportWord_fields 0b00#2 b
  simp [decodeTw, hrs, hrw, hd, first]

/-- An operation with a command byte is a command word, and its code is that byte with `RS` and `RW` at 0. -/
theorem command_of_commandByte {p : Params} {i : Instr} {b : Byte} (h : i.commandByte p = some b) :
    i ∈ commandWords ∧ encode p i = .tw (0b00#2 ++ b) := by
  cases i <;> cases h
  all_goals exact ⟨by decide, rfl⟩

/-- A member of a list is found if it has the property and nothing before it has. -/
theorem find?_eq_some_of_none_before {l : List Instr} {q : Instr → Bool} {i : Instr} (mem : i ∈ l) (hi : q i = true)
    (before : ∀ j ∈ l.takeWhile (fun j => decide (j ≠ i)), q j = false) : l.find? q = some i := by
  induction l with
  | nil => cases mem
  | cons a l ih =>
    by_cases ha : a = i
    · rw [ha, List.find?_cons_of_pos hi]
    · rw [List.takeWhile_cons_of_pos (by simpa using ha), List.forall_mem_cons] at before
      obtain ⟨hqa, hql⟩ := before
      rw [List.find?_cons_of_neg (by simp [hqa])]
      exact ih ((List.mem_cons.mp mem).resolve_left (Ne.symm ha)) hql

/-- A well-formed command word is the first of its byte. -/
theorem find?_command_of_wf {p : Params} {i : Instr} {b : Byte} (h : i.commandByte p = some b)
    (hwf : i.wf p = true) : commandWords.find? (fun j => decide (j.commandByte p = some b)) = some i := by
  simp only [Instr.wf, h, List.all_eq_true, decide_eq_true_eq] at hwf
  exact find?_eq_some_of_none_before (command_of_commandByte h).1 (decide_eq_true h)
    fun j hj => decide_eq_false (hwf j hj)

/-! ### Decoding an encoded operation -/

/-- The state code of `CTL.FMT i` carries `i` in its low bits (rule R88). -/
theorem decodeSt_format (k : BitVec 5) : decodeSt (0b011#3 ++ k) = .ok (.ctlFmt k) := by
  have high : (0b011#3 ++ k).extractLsb' 5 3 = 0b011#3 := BitVec.extractLsb'_append_eq_left
  have low : (0b011#3 ++ k).extractLsb' 0 5 = k := BitVec.extractLsb'_append_eq_right
  rw [decodeSt, if_pos high, low]

/-- An operation that carries no command byte has one code, the same under every record. -/
theorem decode_encode_of_no_commandByte {p : Params} {i : Instr} (h : i.commandByte p = none) :
    decode p (encode p i) = .ok i := by
  cases i
  case ctlFmt k => exact decodeSt_format k
  case lcdData d => exact decodeTw_data p d
  case lcdFuncset | lcdDispoff | lcdClear | lcdEntrymode | lcdDispon | lcdLine2 | lcdHome => cases h
  all_goals rfl

/-- Settles O2: a command word is the first of its byte, and every other operation has a code of its own. -/
theorem encodedOperationDecodesToItself : Obligations.EncodedOperationDecodesToItself := by
  intro p i hwf
  cases h : i.commandByte p with
  | none => exact decode_encode_of_no_commandByte h
  | some b =>
    rw [(command_of_commandByte h).2]
    exact decodeTw_command (find?_command_of_wf h hwf)

/-! ### The arbiter vector (rule R85) -/

/-- The pattern `11mc0ab`. -/
theorem fastPattern_iff (w : BitVec 7) :
    w &&& 0b1100100#7 = 0b1100000#7 ↔ w.getLsbD 6 = true ∧ w.getLsbD 5 = true ∧ w.getLsbD 2 = false := by
  revert w
  decide

/-- The pattern `101c00b`. -/
theorem medPattern_iff (w : BitVec 7) :
    w &&& 0b1110110#7 = 0b1010000#7 ↔ w.getLsbD 6 = true ∧ w.getLsbD 5 = false ∧ w.getLsbD 4 = true ∧
      w.getLsbD 2 = false ∧ w.getLsbD 1 = false := by
  revert w
  decide

/-- The three patterns exclude each other, so their order in the decoder does not matter. -/
theorem decodeArb_eq_ok_iff (w : BitVec 7) :
    (decodeArb w = .ok .dispatchFast ↔ w &&& 0b1100100#7 = 0b1100000#7) ∧
    (decodeArb w = .ok .dispatchMed ↔ w &&& 0b1110110#7 = 0b1010000#7) ∧
    (decodeArb w = .ok .dispatchCtrl ↔ w = 0b1001000#7) := by
  unfold decodeArb
  split
  · next hfast =>
    have hmed : ¬ w &&& 0b1110110#7 = 0b1010000#7 := by
      rw [medPattern_iff]
      rw [fastPattern_iff] at hfast
      simp [hfast]
    have hctrl : w ≠ 0b1001000#7 := by
      rintro rfl
      exact absurd hfast (by decide)
    simp [hfast, hmed, hctrl]
  · next hfast =>
    split
    · next hmed =>
      have hctrl : w ≠ 0b1001000#7 := by
        rintro rfl
        exact absurd hmed (by decide)
      simp [hfast, hmed, hctrl]
    · next hmed => split <;> simp_all

/-- Settles O3: the patterns are conditions on single bits, and `decodeArb_arbVector` compares them with rule R13. -/
theorem dispatchPatternsAreThePriorityRule : Obligations.DispatchPatternsAreThePriorityRule := by
  refine ⟨fun s => ?_, fun w => ?_, fun s => ?_⟩
  · simp only [arbVector, BitVec.getLsbD_append]
    simp
  · rw [← fastPattern_iff, ← medPattern_iff]
    exact decodeArb_eq_ok_iff w
  · rw [decodeArb_arbVector]
    cases dispatchRule s <;> rfl

/-! ### The state code (rules R86 and R96) -/

/-- A step code outside the table selects nothing. -/
theorem decodeSt_of_not_legal {c : Context} {n : BitVec 6} (h : legalStep c n = false) :
    decodeSt (c.code ++ n) = .error .unreachableState := by
  have table : ∀ n : BitVec 6, legalStep c n = false → decodeSt (c.code ++ n) = .error .unreachableState := by
    cases c <;> decide
  exact table n h

/-- The machine's turn at such a code, with no dispatch wanted, is refused. -/
theorem machineTurn_of_not_legal {s : State} (hr : s.rstActive = false) (hd : dispatchRule s = none)
    (h : legalStep s.running (s.hpc.get s.running) = false) : machineTurn s = .refused .noOperation := by
  have hf : fetchMachine s = .error .unreachableState :=
    (fetchMachine_of_no_dispatch hd).trans (decodeSt_of_not_legal h)
  simp [machineTurn, hr, hf]

/-- Settles O4: the table has the listed codes, and the machine's turn performs what it fetches. -/
theorem unlistedStateCodesAreRefused : Obligations.UnlistedStateCodesAreRefused := by
  refine ⟨fun c n => ⟨fun ⟨i, hi⟩ => ?_, decodeSt_of_legal⟩, fun s rest hv ha hr hd hl => ?_⟩
  · by_contra hl
    rw [decodeSt_of_not_legal (Bool.eq_false_iff.mpr hl)] at hi
    cases hi
  · exact (step_machine hv ha).trans (machineTurn_of_not_legal (s := { s with agenda := rest }) hr hd hl)

/-! ### Words of the tables, and their emission -/

/-- Settles O1: each word is looked up in its format's table. -/
theorem tableWordsDecode : Obligations.TableWordsDecode := by
  unfold Obligations.TableWordsDecode
  decide

/-- Settles O48: each word is one `issue` from an idle transport. -/
theorem transportWordsAreIssued : Obligations.TransportWordsAreIssued := by
  intro s d idle
  have command (b : Byte) : issue false b s = .next { s with tw := 0b00#2 ++ b, ts := .setup } :=
    issue_idle false b idle
  exact ⟨command _, command _, command _, command _, command _, command _, command _, issue_idle true d idle⟩

end Sys2Proof.Machine
end

section
/-! O7: the events of one vector in any order (30_encoding.md rule R83). Each event other than a reset updates registers
of its own, from registers that no other event writes; so any two of them commute. -/

namespace Sys2Proof.Machine

/-! ### The events as updates of their own registers -/

theorem exec_evStart (s : State) :
    exec .evStart s = .next { s with
      ien := s.ien || decide (s.hpc.bg = 0)
      hpc := { s.hpc with bg := if s.hpc.bg = 0 then 1 else s.hpc.bg } } := by
  rcases startBackground_cases s with ⟨h, heq⟩ | ⟨h, heq⟩
  · simp only [exec, execEvStart, heq, if_pos h, decide_eq_true h, Bool.or_true]
  · simp only [exec, execEvStart, heq, if_neg h, decide_eq_false h, Bool.or_false]

theorem exec_evPulse (s : State) :
    exec .evPulse s = .next { s with pulseCnt := if s.initDone then s.pulseCnt + 1 else s.pulseCnt } := by
  simp only [exec, execEvPulse]
  split <;> rfl

theorem exec_evReady (s : State) :
    exec .evReady s = .next { s with ts := if s.ts = .settle then .idle else s.ts } := by
  rcases completeTransfer_cases s with ⟨h, heq⟩ | ⟨h, heq⟩
  · simp only [exec, execEvReady, heq, if_pos h]
  · simp only [exec, execEvReady, heq, if_neg h]

/-! ### Operations that commute -/

/-- The order of the two operations does not matter. -/
def Commutes (i j : Instr) : Prop := ∀ s, execAll [i, j] s = execAll [j, i] s

/-- Two operations that are commuting updates of the state. -/
theorem commutes_of_updates {i j : Instr} {f g : State → State} (hi : ∀ s, exec i s = .next (f s))
    (hj : ∀ s, exec j s = .next (g s)) (h : Function.Commute f g) : Commutes i j := by
  intro s
  simp only [execAll, hi, hj, andThen_next, h.eq s]

/-- Operations of which any two commute may be performed in any order. -/
theorem execAll_perm {l m : List Instr} (perm : l.Perm m) (h : ∀ i ∈ l, ∀ j ∈ l, Commutes i j) (s : State) :
    execAll l s = execAll m s := by
  induction perm generalizing s with
  | nil => rfl
  | cons i _ ih =>
    have rest := ih fun j hj k hk => h j (List.mem_cons_of_mem i hj) k (List.mem_cons_of_mem i hk)
    simp only [execAll, funext rest]
  | swap i j l =>
    have first : execAll [j, i] s = execAll [i, j] s := h j (by simp) i (by simp) s
    calc execAll ([j, i] ++ l) s
      _ = andThen (execAll [j, i] s) (execAll l) := execAll_append _ _ _
      _ = andThen (execAll [i, j] s) (execAll l) := by rw [first]
      _ = execAll ([i, j] ++ l) s := (execAll_append _ _ _).symm
  | trans p _ ih₁ ih₂ =>
    exact (ih₁ h s).trans (ih₂ (fun i hi j hj => h i (p.mem_iff.mpr hi) j (p.mem_iff.mpr hj)) s)

/-! ### The events commute -/

theorem commutes_ticks (a b : Source) : Commutes (tickOf a) (tickOf b) :=
  commutes_of_updates (exec_tickOf a) (exec_tickOf b) fun _ => by cases a <;> cases b <;> rfl

/-- A tick and any other event. -/
theorem commutes_tick (a : Source) : ∀ j ∈ [Instr.evPulse, .evReady, .evStart], Commutes (tickOf a) j := by
  simp only [List.forall_mem_cons]
  exact ⟨commutes_of_updates (exec_tickOf a) exec_evPulse fun _ => rfl,
    commutes_of_updates (exec_tickOf a) exec_evReady fun _ => rfl,
    commutes_of_updates (exec_tickOf a) exec_evStart fun _ => rfl, nofun⟩

/-- Any two events of the list, in the order of the list. -/
theorem eventOps_pairwise_commutes : eventOps.Pairwise Commutes := by
  have ticks_others : eventOps = [Source.fast, .med, .ctrl].map tickOf ++ [.evPulse, .evReady, .evStart] := rfl
  rw [ticks_others, List.pairwise_append]
  refine ⟨List.pairwise_map.mpr (List.pairwise_of_forall commutes_ticks), ?_, fun i hi => ?_⟩
  · exact .cons (List.forall_mem_cons.mpr ⟨commutes_of_updates exec_evPulse exec_evReady fun _ => rfl,
        List.forall_mem_singleton.mpr (commutes_of_updates exec_evPulse exec_evStart fun _ => rfl)⟩)
      (.cons (List.forall_mem_singleton.mpr (commutes_of_updates exec_evReady exec_evStart fun _ => rfl))
        (List.pairwise_singleton _ _))
  · obtain ⟨a, -, rfl⟩ := List.mem_map.mp hi
    exact commutes_tick a

theorem commutes_eventOps {i j : Instr} (hi : i ∈ eventOps) (hj : j ∈ eventOps) : Commutes i j :=
  have : Std.Symm Commutes := ⟨fun _ _ h s => (h s).symm⟩
  List.Pairwise.forall_of_forall (fun _ _ _ => rfl) eventOps_pairwise_commutes hi hj

/-! ### The vector -/

/-- A vector without `RST` performs its events, after releasing a reset in force. -/
theorem eventTurn_of_no_reset {w : BitVec 7} (h : w[6] = false) (s : State) :
    eventTurn w s = execAll (decodeEvents w) (releaseReset s) :=
  if_neg (by simp [h])

/-- Settles O7: the events of a vector are performed in the order of the decoder, and any two of them commute. -/
theorem eventVectorIsItsEventsInAnyOrder : Obligations.EventVectorIsItsEventsInAnyOrder := by
  refine ⟨fun s rest w hv ha hw => ?_, fun s rest w hv ha hw => ?_, fun s w l hw perm => ?_, fun s rest hv ha => ?_⟩
  · exact (step_event hv ha).trans (if_pos hw)
  · have events : decodeEvents w = _ := if_neg (Bool.eq_false_iff.mp hw)
    calc step s
      _ = eventTurn w { s with agenda := rest } := step_event hv ha
      _ = execAll (decodeEvents w) { s with agenda := rest, rstActive := false } := eventTurn_of_no_reset hw _
      _ = _ := congrArg (execAll · _) events
  · have mem : ∀ i ∈ l, i ∈ eventOps := fun i hi => mem_eventOps hw (perm.mem_iff.mp hi)
    exact execAll_perm perm (fun i hi j hj => commutes_eventOps (mem i hi) (mem j hj)) s
  · exact (step_event hv ha).trans (eventTurn_of_no_reset rfl _)

end Sys2Proof.Machine
end

section
/-! The statements about the init sequence and its stall: O41, O43 and O46. While `FAST` waits for the transport and
`EV.READY` does not come, the machine has no step at all; what can still happen is the other events and the two phases
before the wait, and none of them writes a register of a context (10_state.md rule R44). -/

namespace Sys2Proof.Machine

/-! ### The stall (40_display_init.md rule R124) -/

/-- The operations that a stall leaves possible: every event but `EV.READY` and `EV.RST`, and the phases up to the wait
for `EV.READY`. -/
def stallOps : List Instr := [.evTickF, .evTickM, .evTickC, .evPulse, .evStart, .trnEhi, .trnElo]

/-- The registers that a stall leaves alone: all but those of the events, of the transport's phase and of reset. -/
def Register.frozen : Register → Bool
  | .pulseCnt | .ien | .ts | .lcdTrace | .rstActive | .pend _ | .ovr _ | .step .bg => false
  | _ => true

/-- No state code selects an operation that a stall leaves possible. -/
theorem decodeSt_ne_stallOp {w : BitVec 8} {i : Instr} (hi : i ∈ stallOps) : decodeSt w ≠ .ok i := by
  intro h
  have hcode := encode_of_decodeSt h
  simp only [stallOps, List.mem_cons, List.not_mem_nil, or_false] at hi
  rcases hi with rfl | rfl | rfl | rfl | rfl | rfl | rfl <;> cases hcode

theorem dispatchOf_not_mem_stallOps (src : Source) : dispatchOf src ∉ stallOps := by
  cases src <;> decide

theorem returnOf_not_mem_stallOps (src : Source) : returnOf src ∉ stallOps := by
  cases src <;> decide

/-- None of the possible operations writes a register that a stall leaves alone. -/
theorem not_writer_of_frozen {r : Register} (hr : r.frozen = true) {i : Instr} (hi : i ∈ stallOps) :
    ¬ r.Writer i := by
  cases r
  case pulseCnt | ien | ts | lcdTrace | rstActive | pend | ovr => cases hr
  case act src =>
    rintro (rfl | rfl)
    · exact dispatchOf_not_mem_stallOps src hi
    · exact returnOf_not_mem_stallOps src hi
  case step c =>
    rintro (⟨n, hcode⟩ | ⟨src, -, rfl⟩ | ⟨rfl, -⟩)
    · exact decodeSt_ne_stallOp hi hcode
    · exact dispatchOf_not_mem_stallOps src hi
    · cases hr
  case tw =>
    rintro (hw | ⟨d, rfl⟩)
    · exact absurd hw (by revert i; decide)
    · simp [stallOps] at hi
  case cursor =>
    rintro (rfl | rfl)
    · simp [stallOps] at hi
    · simp [stallOps] at hi
  all_goals
    rintro rfl
    simp [stallOps] at hi

/-- `t` follows `s` in a stall: only turns have passed, and only registers that a stall does not leave alone differ. -/
structure Stays (s t : State) : Prop where
  cfg : t.cfg = s.cfg
  turns : t.agenda <:+ s.agenda
  busy : s.ts ≠ .idle → t.ts ≠ .idle
  frozen : ∀ r : Register, r.frozen = true → r.Agrees s t

theorem Stays.refl (s : State) : Stays s s := ⟨rfl, List.suffix_refl _, id, fun r _ => .refl r s⟩

theorem Stays.trans {s t u : State} (h : Stays s t) (h' : Stays t u) : Stays s u :=
  ⟨h'.cfg.trans h.cfg, h'.turns.trans h.turns, h'.busy ∘ h.busy,
    fun r hr => (h.frozen r hr).trans (h'.frozen r hr)⟩

/-- Passing turns stays in the stall. -/
theorem Stays.withTurns {s : State} {rest : List Turn} (h : rest <:+ s.agenda) : Stays s (s.withTurns rest) :=
  ⟨rfl, h, id, fun r _ => by cases r <;> rfl⟩

/-- A new `adc` level stays in the stall. -/
theorem Stays.withLevel {s : State} (a : BitVec 16) : Stays s { s with adc := a } :=
  ⟨rfl, List.suffix_refl _, id, fun r _ => by cases r <;> rfl⟩

/-- Releasing reset stays in the stall. -/
theorem Stays.releaseReset (s : State) : Stays s (releaseReset s) :=
  ⟨rfl, List.suffix_refl _, id, fun r hr => by
    cases r
    case rstActive => cases hr
    all_goals rfl⟩

/-- Of the possible operations only the phases write the transport's phase. -/
theorem phase_of_stallOp {i : Instr} (hi : i ∈ stallOps) (hw : Register.ts.Writer i) : i = .trnEhi ∨ i = .trnElo := by
  rcases hw with hw | ⟨d, rfl⟩
  · revert i
    decide
  · simp [stallOps] at hi

theorem ne_evRst_of_stallOp {i : Instr} (hi : i ∈ stallOps) : i ≠ .evRst :=
  fun e => absurd (e ▸ hi) (by decide)

/-- None of the possible operations ends a transaction. -/
theorem busy_of_stallOp {i : Instr} (hi : i ∈ stallOps) {s t : State} (h : exec i s = .next t) (hb : s.ts ≠ .idle) :
    t.ts ≠ .idle := by
  by_cases hw : Register.ts.Writer i
  · rcases phase_of_stallOp hi hw with rfl | rfl
    · cases h
      nofun
    · cases h
      nofun
  · have agrees : t.ts = s.ts := exec_writesOnly (ne_evRst_of_stallOp hi) s t h .ts hw
    rwa [agrees]

/-- Each of the possible operations stays in the stall. -/
theorem Stays.exec {i : Instr} (hi : i ∈ stallOps) {s t : State} (h : exec i s = .next t) : Stays s t := by
  obtain ⟨hcfg, -, hagenda, -⟩ := environmentFree_exec i s t h
  exact ⟨hcfg, hagenda ▸ List.suffix_refl _, busy_of_stallOp hi h,
    fun r hr => exec_writesOnly (ne_evRst_of_stallOp hi) s t h r (not_writer_of_frozen hr hi)⟩

theorem Stays.execAll {l : List Instr} (hl : ∀ i ∈ l, i ∈ stallOps) {s t : State} (h : execAll l s = .next t) :
    Stays s t := by
  induction l generalizing s with
  | nil =>
    cases h
    exact .refl _
  | cons i l ih =>
    obtain ⟨u, hu, ht⟩ := andThen_next_iff.mp h
    exact (Stays.exec (hl i (by simp)) hu).trans (ih (fun j hj => hl j (by simp [hj])) ht)

/-- The events of a vector without `READY` and `RST` are possible in a stall. -/
theorem decodeEvents_stallOps {w : BitVec 7} (hready : w.getLsbD 4 = false) (hreset : w.getLsbD 6 = false) :
    ∀ i ∈ decodeEvents w, i ∈ stallOps := by
  revert w
  decide

/-- `FAST` stands at `INI.CMDW` with a transaction in flight, and neither `EV.READY` nor a reset is to come. -/
structure Stalled (s : State) : Prop where
  valid : s.cfg.valid = true
  active : s.act.fast = true
  standing : s.hpc.fast = 2
  busy : s.ts ≠ .idle
  unready : ∀ w, Turn.event w ∈ s.agenda → w.getLsbD 4 = false ∧ w.getLsbD 6 = false

section Stalled
variable {s t : State}

/-- A stall goes on. -/
theorem Stays.stalled (h : Stays s t) (hs : Stalled s) : Stalled t where
  valid := h.cfg ▸ hs.valid
  active := Eq.trans (h.frozen (.act .fast) rfl) hs.active
  standing := Eq.trans (h.frozen (.step .fast) rfl) hs.standing
  busy := h.busy hs.busy
  unready := fun w hw => hs.unready w (h.turns.subset hw)

/-- The answer is a next state in which the stall goes on. -/
def AnswersStaying (s : State) (r : Result) : Prop := ∃ t, r = .next t ∧ Stays s t

theorem AnswersStaying.next (h : Stays s t) : AnswersStaying s (.next t) := ⟨t, rfl, h⟩

theorem AnswersStaying.after {u : State} {r : Result} (h : Stays s u) (hr : AnswersStaying u r) :
    AnswersStaying s r := by
  obtain ⟨t, ht, hut⟩ := hr
  exact ⟨t, ht, h.trans hut⟩

/-- Nothing is above `FAST`, and `FAST` waits: the machine has no step. -/
theorem Stalled.machineTurn (h : Stalled s) : machineTurn s = .next s := by
  cases hr : s.rstActive
  case true => exact if_pos hr
  have runs : Runs .fast 2 s := runs_fast hr h.active h.standing
  have hcode : decodeSt (stateCode s) = .ok .iniCmdw := by
    rw [stateCode_eq_iff.mpr ⟨runs.running, runs.atStep⟩]
    rfl
  exact machineTurn_wait_busy hr runs.noDispatch h.busy (by decide) hcode

/-- The transport goes on to the wait for `EV.READY`, and does not end the wait by itself. -/
theorem answersStaying_transportTurn (s : State) : AnswersStaying s (transportTurn s) := by
  obtain ⟨t, ht⟩ := answers_transportTurn s
  refine ⟨t, ht, ?_⟩
  rcases transportTurn_next ht with rfl | ⟨i, -, hfetch, henabled, hx⟩
  · exact .refl t
  rcases fetchTransport_ok hfetch with ⟨-, rfl⟩ | ⟨-, rfl⟩ | ⟨-, rfl⟩
  · exact .exec (by decide) hx
  · exact .exec (by decide) hx
  · cases henabled

theorem answersStaying_eventTurn {w : BitVec 7} (hready : w.getLsbD 4 = false) (hreset : w.getLsbD 6 = false) :
    AnswersStaying s (eventTurn w s) := by
  obtain ⟨t, ht⟩ := answers_eventTurn w s
  rw [ht]
  rw [eventTurn_of_no_reset hreset] at ht
  exact .next ((Stays.releaseReset s).trans (.execAll (decodeEvents_stallOps hready hreset) ht))

theorem Stalled.answersStaying_autoTurn (h : Stalled s) : AnswersStaying s (autoTurn s) := by
  unfold autoTurn
  split
  · exact h.machineTurn ▸ .next (.refl s)
  · split
    · exact answersStaying_transportTurn s
    · exact .next (.refl s)

/-- Every turn to come leaves the block in the stall. -/
theorem Stalled.answersStaying_step (h : Stalled s) : AnswersStaying s (step s) := by
  rw [step_of_valid h.valid, takeTurn]
  split
  · exact h.answersStaying_autoTurn
  · next w rest turn =>
    obtain ⟨hready, hreset⟩ := h.unready w (by simp [turn])
    exact .after (.withTurns (rest := rest) (by simp [turn])) (answersStaying_eventTurn hready hreset)
  · next a rest turn =>
    exact .next ((Stays.withTurns (rest := rest) (by simp [turn])).trans (.withLevel a))
  · next rest turn =>
    have stays : Stays s (s.withTurns rest) := .withTurns (by simp [turn])
    exact (stays.stalled h).machineTurn ▸ .next stays
  · next rest turn =>
    exact .after (.withTurns (rest := rest) (by simp [turn])) (answersStaying_transportTurn _)
  · next rest turn =>
    split
    · exact .next (.withTurns (by simp [turn]))
    · exact h.answersStaying_autoTurn

/-- Any number of steps leaves the block in the stall. -/
theorem Stalled.answersStaying_run (k : Nat) (h : Stalled s) :
    AnswersStaying s (Host.Core.run Sys2Proof.core k s) := by
  induction k generalizing s with
  | zero => exact .next (.refl s)
  | succ k ih =>
    obtain ⟨u, hstep, stays⟩ := h.answersStaying_step
    have hcore : Sys2Proof.core.step s = .next u := hstep
    simp only [Host.Core.run, hcore]
    exact .after stays (ih (stays.stalled h))

end Stalled

/-- Settles O46: each step keeps the stall, and no operation that a stall leaves possible writes one of the registers. -/
theorem initStallsForeverWithoutReady : Obligations.InitStallsForeverWithoutReady := by
  intro k s hv hact hstep hbusy hturns
  have stalled : Stalled s := ⟨hv, hact, hstep, hbusy, hturns⟩
  obtain ⟨t, hrun, stays⟩ := stalled.answersStaying_run k
  obtain ⟨-, active, standing, busy, -⟩ := stays.stalled stalled
  have kept := stays.frozen
  have act : t.act = s.act := SourceBits.ext_get fun src => kept (.act src) rfl
  exact ⟨t, hrun, active, standing, busy, act, kept (.step .med) rfl, kept (.step .ctrl) rfl, kept .initDone rfl,
    kept .initMs rfl, kept .tSel rfl, kept .tw rfl, kept .cursor rfl, kept .tByte rfl, kept .sampleCnt rfl,
    kept .tAdc rfl, kept .cmdSpeed rfl, kept .tPulses rfl, kept .measSpeed rfl, kept .duty rfl, kept .dutyTrace rfl,
    kept .ienSave rfl, fun a => kept (.cell a) rfl⟩

/-! ### The tick and the end of a command (40_display_init.md rules R111 and R113) -/

/-- An entry equals the next tick count exactly when their numbers are equal, as long as the count does not overflow. -/
theorem entry_eq_next_count_iff {s : State} (h : s.initMs.toNat + 1 < 2 ^ 16) (i : Fin 8) :
    s.cfg.schedT[i] = s.initMs + 1 ↔ s.initMs.toNat + 1 = s.cfg.schedT[i].toNat := by
  have hnext : (s.initMs + 1).toNat = s.initMs.toNat + 1 := BitVec.toNat_add_of_lt h
  rw [BitVec.toNat_eq, hnext, eq_comm]

/-- Settles O41: a valid record has at most one entry of a tick count, which the lookup finds. -/
theorem initTickLooksUpTheSchedule : Obligations.InitTickLooksUpTheSchedule := by
  refine ⟨rfl, fun s hd => if_pos hd, fun s i hv hd hcount => ?_, fun s hd hlt hnone => ?_⟩
  · have hlt : s.initMs.toNat + 1 < 2 ^ 16 := hcount ▸ s.cfg.schedT[i].isLt
    exact exec_iniTick_some hd hlt ((scheduleMatch_eq_some hv).mpr ((entry_eq_next_count_iff hlt i).mpr hcount))
  · have hlt : s.initMs.toNat + 1 < 2 ^ 16 := Nat.add_lt_add_right hlt 1
    have hmatch : scheduleMatch s.cfg (s.initMs + 1) = none := by
      rw [Option.eq_none_iff_forall_ne_some]
      intro i hi
      exact hnone i ((entry_eq_next_count_iff hlt i).mp (scheduleMatch_some hi))
    exact exec_iniTick_none hd hlt hmatch

/-- Settles O43: the operation is an update, which sets `INIT_DONE` at the last entry only. -/
theorem lastCommandCompletesInit : Obligations.LastCommandCompletesInit := by
  refine ⟨rfl, fun s hi => (exec_iniCmdw hi).trans (congrArg Host.Outcome.next ?_)⟩
  by_cases hlast : s.tSel = 7
  · rw [if_pos hlast]
    simp [State.completed, State.setStep, hlast]
  · rw [if_neg hlast]
    simp [State.completed, State.setStep, hlast]

end Sys2Proof.Machine
end

section
/-! The statements about the operations of the display refresh: O35, O36 and O38. From an idle transport each of them
is one update of the state (`exec_rfrHome` to `exec_rfrCharw`); what is left is where `RFR.SEL` goes. -/

namespace Sys2Proof.Machine

/-! ### The branch (41_display_refresh.md rule R131) -/

section Branch
variable {s : State}

/-- Before the end of the init sequence the cursor does not count. -/
theorem refreshBranch_of_not_initDone (h : s.initDone = false) : refreshBranch s = 7 := if_pos h

theorem refreshBranch_of_initDone (h : s.initDone ≠ false) :
    refreshBranch s = if s.cursor.val = 32 then 1 else if s.cursor.val = 16 then 3 else 5 := if_neg h

theorem exec_rfrSel (s : State) : exec .rfrSel s = .next (s.setStep .med (refreshBranch s)) := rfl

end Branch

/-- Settles O35: the operation writes its step only, and the branch looks at the cursor only after the init sequence. -/
theorem refreshBranchesOnTheCursor : Obligations.RefreshBranchesOnTheCursor := by
  refine ⟨rfl, fun s => ?_⟩
  rw [exec_rfrSel]
  by_cases hd : s.initDone = false
  · rw [refreshBranch_of_not_initDone hd, if_pos hd]
    rfl
  · rw [refreshBranch_of_initDone hd, if_neg hd]
    rfl

/-! ### The commands and the waits -/

/-- Settles O36: each operation issues the byte that the multiplexer shows for it. -/
theorem refreshCommandsAreIssued : Obligations.RefreshCommandsAreIssued :=
  ⟨⟨rfl, rfl⟩, fun _ idle => ⟨exec_rfrHome idle, exec_rfrLine2 idle⟩⟩

/-- Settles O38: from an idle transport each wait is an update, and a cursor inside the frame can be advanced. -/
theorem refreshWaitsGoOn : Obligations.RefreshWaitsGoOn := by
  refine ⟨⟨rfl, rfl, rfl⟩, fun s idle => ⟨exec_rfrHomew idle, exec_rfrLine2w idle, fun hc => ?_⟩⟩
  have inside : s.cursor.val < 32 := by omega
  exact ⟨_, exec_rfrCharw idle inside, rfl, rfl⟩

end Sys2Proof.Machine
end

section
/-! The statements about the transport: O14, O47 and O49. The phases are one update each; an operation that issues
meets a busy transport in `issue`, whatever byte it has to send. -/

namespace Sys2Proof.Machine

/-! ### The phases (42_transport.md rules R148, R149 and R151) -/

/-- Settles O14: both operations complete the transfer, which only a settling one notices. -/
theorem readyEndsOnlyASettlingTransaction : Obligations.ReadyEndsOnlyASettlingTransaction := by
  refine ⟨⟨rfl, rfl⟩, fun s => ⟨?_, rfl⟩⟩
  change Host.Outcome.next (completeTransfer s) = _
  rcases completeTransfer_cases s with ⟨settling, done⟩ | ⟨other, ignored⟩
  · rw [done, if_pos settling]
  · rw [ignored, if_neg other]

/-- Settles O47: each of the two phases is one update, and the entry latched is read off `TW`. -/
theorem transportPulsesTheEnable : Obligations.TransportPulsesTheEnable :=
  ⟨⟨rfl, rfl⟩, fun _ => ⟨rfl, rfl⟩⟩

/-! ### Issuing while the transport is busy (42_transport.md rule R147) -/

section Busy
variable {s : State}

theorem issue_busy (rs : Bool) (b : Byte) (h : s.ts ≠ .idle) : issue rs b s = .refused .transportBusy := if_neg h

/-- A refused issue leaves the operation no step to go on to. -/
theorem andThen_issueSelected_busy {sel : MuxSelect} {rs : Bool} {b : Byte} (h : s.ts ≠ .idle)
    (hm : muxOutput sel s = some (rs, b)) (k : State → Result) :
    andThen (issueSelected sel s) k = .refused .transportBusy := by
  simp only [issueSelected, hm, issue_busy rs b h, andThen]

/-- With a cell to send, `RFR.CHAR` gets as far as the issue. -/
theorem exec_rfrChar_busy (h : s.ts ≠ .idle) (hc : s.cursor.val < 32) :
    exec .rfrChar s = .refused .transportBusy := by
  have hmux : muxOutput .rfrChar (s.withByte s.cursorByte) = some (true, s.cursorByte) :=
    congrArg (Option.map _) (memRead_cursor hc)
  simp only [exec, execRfrChar, memRead_cursor hc]
  exact andThen_issueSelected_busy (s := s.withByte s.cursorByte) h hmux _

end Busy

/-- Settles O49: three operations issue through the multiplexer, `RFR.CHAR` after its read, and the words directly. -/
theorem issueWithBusyTransportIsRefused : Obligations.IssueWithBusyTransportIsRefused := by
  rintro s i busy ((listed | ⟨d, rfl⟩) | ⟨rfl, hc⟩)
  · simp only [List.mem_cons, List.not_mem_nil, or_false] at listed
    rcases listed with rfl | rfl | rfl | rfl | rfl | rfl | rfl | rfl | rfl | rfl
    case inl | inr.inl | inr.inr.inl => exact andThen_issueSelected_busy busy rfl _
    all_goals exact issue_busy false _ busy
  · exact issue_busy true d busy
  · exact exec_rfrChar_busy busy (by omega)

end Sys2Proof.Machine
end

section
/-! The statements about the speed control loop: O24 to O27, O29, O30, O32 and O33. Each operation is one update of the
state, so what is left is the arithmetic of what it writes; the two cadences iterate the count of one `CTL.DIV`. -/

namespace Sys2Proof.Machine

/-! ### One count of the divider (43_control_loop.md rule R161) -/

/-- The count that `CTL.DIV` compares with `K_DIV`, from `SAMPLE_CNT = c`. -/
def counted (p : Params) (c : Nat) : Nat := (c + 1) % 2 ^ p.sampleWidth

/-- The count that `CTL.DIV` leaves behind, from `SAMPLE_CNT = c`. -/
def nextCount (p : Params) (c : Nat) : Nat := if counted p c = p.kDiv ∧ p.divReload = true then 0 else counted p c

section Divider
variable {p : Params} {c : Nat}

theorem counted_lt (p : Params) (c : Nat) : counted p c < 2 ^ p.sampleWidth := Nat.mod_lt _ (Nat.two_pow_pos _)

theorem nextCount_of_match (h : counted p c = p.kDiv) :
    nextCount p c = if p.divReload = true then 0 else p.kDiv := by
  simp only [nextCount, h, true_and]

theorem nextCount_of_no_match (h : counted p c ≠ p.kDiv) : nextCount p c = counted p c := if_neg fun m => h m.1

theorem nextCount_of_no_reload (h : p.divReload = false) (c : Nat) : nextCount p c = counted p c :=
  if_neg (by simp [h])

theorem nextCount_le_counted (p : Params) (c : Nat) : nextCount p c ≤ counted p c := by
  unfold nextCount
  split <;> omega

/-- The count that is left fits the register. -/
theorem toNat_nextCount (hv : p.valid = true) (c : Nat) : (BitVec.ofNat 32 (nextCount p c)).toNat = nextCount p c := by
  obtain ⟨-, ⟨-, hwidth, -⟩, -⟩ := valid_bounds hv
  have fits : nextCount p c < 2 ^ 32 :=
    calc nextCount p c ≤ counted p c := nextCount_le_counted p c
      _ < 2 ^ p.sampleWidth := counted_lt p c
      _ ≤ 2 ^ 32 := Nat.pow_le_pow_right (by decide) hwidth
  exact Nat.mod_eq_of_lt fits

end Divider

/-- The state with count `c`. -/
def State.withCount (s : State) (c : Nat) : State := { s with sampleCnt := BitVec.ofNat 32 c }

/-- The step after `CTL.DIV`: the body on a match, the return otherwise. -/
def divSuccessor (p : Params) (c : Nat) : BitVec 6 := if counted p c = p.kDiv then 1 else 7

theorem nextSample_eq (s : State) : nextSample s = counted s.cfg s.sampleCnt.toNat := rfl

/-- All that `CTL.DIV` does: it counts, and goes on by whether the count matches. -/
theorem exec_ctlDiv (s : State) :
    exec .ctlDiv s =
      .next ((s.withCount (nextCount s.cfg s.sampleCnt.toNat)).setStep .ctrl
        (divSuccessor s.cfg s.sampleCnt.toNat)) := by
  change execCtlDiv s = _
  rw [execCtlDiv, nextSample_eq, divSuccessor]
  by_cases hm : counted s.cfg s.sampleCnt.toNat = s.cfg.kDiv
  · rw [if_pos hm, if_pos hm, nextCount_of_match hm, ← hm, State.withCount, apply_ite (BitVec.ofNat 32)]
    rfl
  · rw [if_neg hm, if_neg hm, nextCount_of_no_match hm]
    rfl

/-- Settles O24: by whether the count matches. -/
theorem dividerCountsAndCompares : Obligations.DividerCountsAndCompares := by
  refine ⟨rfl, fun s hv => ⟨_, exec_ctlDiv s, rfl, ?_⟩⟩
  change if counted s.cfg s.sampleCnt.toNat = s.cfg.kDiv then _ ∧ _ else _ ∧ _
  split
  · next hm => exact ⟨(toNat_nextCount hv _).trans (nextCount_of_match hm), if_pos hm⟩
  · next hm => exact ⟨(toNat_nextCount hv _).trans (nextCount_of_no_match hm), if_neg hm⟩

/-! ### The cadence of the divider (44_dividers_counters.md rules R194 to R196) -/

/-- One `CTL.DIV` more, after any sequence. -/
theorem execAll_append_ctlDiv {l : List Instr} {s t : State} (ht : execAll l s = .next t) :
    execAll (l ++ [.ctlDiv]) s =
      .next ((t.withCount (nextCount t.cfg t.sampleCnt.toNat)).setStep .ctrl
        (divSuccessor t.cfg t.sampleCnt.toNat)) :=
  execAll_append_next ht ((execAll_singleton _ _).trans (exec_ctlDiv t))

/-- `n` operations iterate the count and leave the record alone. -/
theorem execAll_replicate_ctlDiv (n : Nat) {s : State} (hv : s.cfg.valid = true) :
    ∃ t, execAll (List.replicate n .ctlDiv) s = .next t ∧ t.cfg = s.cfg ∧
      t.sampleCnt.toNat = (nextCount s.cfg)^[n] s.sampleCnt.toNat := by
  induction n with
  | zero => exact ⟨s, rfl, rfl, rfl⟩
  | succ n ih =>
    obtain ⟨t, ht, hcfg, hcnt⟩ := ih
    rw [List.replicate_succ', Function.iterate_succ_apply', ← hcnt, ← hcfg]
    exact ⟨_, execAll_append_ctlDiv ht, rfl, toNat_nextCount (hcfg ▸ hv) _⟩

/-- The last of `n + 1` operations branches on the count that the first `n` leave. -/
theorem execAll_replicate_succ_ctlDiv (n : Nat) {s : State} (hv : s.cfg.valid = true) (h0 : s.sampleCnt = 0) :
    ∃ t, execAll (List.replicate (n + 1) .ctlDiv) s = .next t ∧
      t.sampleCnt.toNat = (nextCount s.cfg)^[n + 1] 0 ∧
      t.hpc.ctrl = divSuccessor s.cfg ((nextCount s.cfg)^[n] 0) := by
  obtain ⟨t, ht, hcfg, hcnt⟩ := execAll_replicate_ctlDiv n hv
  have hstart : s.sampleCnt.toNat = 0 := congrArg BitVec.toNat h0
  rw [hstart] at hcnt
  rw [List.replicate_succ', Function.iterate_succ_apply', ← hcnt, ← hcfg]
  exact ⟨_, execAll_append_ctlDiv ht, toNat_nextCount (hcfg ▸ hv) _, rfl⟩

section Cadence
variable {p : Params}

theorem counted_mod (p : Params) (n : Nat) : counted p (n % 2 ^ p.sampleWidth) = (n + 1) % 2 ^ p.sampleWidth :=
  Nat.mod_add_mod n _ 1

/-- Without reload the count wraps with its width. -/
theorem nextCount_iterate_literal (hr : p.divReload = false) (n : Nat) :
    (nextCount p)^[n] 0 = n % 2 ^ p.sampleWidth := by
  induction n with
  | zero => rw [Nat.zero_mod, Function.iterate_zero_apply]
  | succ n ih => rw [Function.iterate_succ_apply', ih, nextCount_of_no_reload hr, counted_mod]

/-- A count below `K_DIV` goes up without a wrap. -/
theorem counted_mod_kDiv (hv : p.valid = true) (n : Nat) : counted p (n % p.kDiv) = n % p.kDiv + 1 := by
  obtain ⟨-, ⟨-, -, hpos, hlt⟩, -⟩ := valid_bounds hv
  have hbelow : n % p.kDiv < p.kDiv := Nat.mod_lt n hpos
  exact Nat.mod_eq_of_lt (by omega)

/-- From the remainder of `n`, the count matches when the next number is a multiple of `K_DIV`. -/
theorem counted_mod_kDiv_match_iff (hv : p.valid = true) (n : Nat) :
    counted p (n % p.kDiv) = p.kDiv ↔ p.kDiv ∣ n + 1 := by
  obtain ⟨-, ⟨-, -, hpos, -⟩, -⟩ := valid_bounds hv
  have hbelow : n % p.kDiv < p.kDiv := Nat.mod_lt n hpos
  rw [counted_mod_kDiv hv, Nat.dvd_iff_mod_eq_zero, ← Nat.mod_add_mod]
  constructor
  · intro heq
    rw [heq, Nat.mod_self]
  · intro hzero
    by_contra hne
    rw [Nat.mod_eq_of_lt (by omega)] at hzero
    omega

/-- With reload the count goes from one remainder by `K_DIV` to the next. -/
theorem nextCount_mod_kDiv (hv : p.valid = true) (hr : p.divReload = true) (n : Nat) :
    nextCount p (n % p.kDiv) = (n + 1) % p.kDiv := by
  by_cases hm : counted p (n % p.kDiv) = p.kDiv
  · rw [nextCount_of_match hm, if_pos hr, Nat.mod_eq_zero_of_dvd ((counted_mod_kDiv_match_iff hv n).mp hm)]
  · obtain ⟨-, ⟨-, -, hpos, -⟩, -⟩ := valid_bounds hv
    have hbelow : n % p.kDiv < p.kDiv := Nat.mod_lt n hpos
    rw [nextCount_of_no_match hm, counted_mod_kDiv hv, ← Nat.mod_add_mod]
    rw [counted_mod_kDiv hv] at hm
    exact (Nat.mod_eq_of_lt (by omega)).symm

theorem nextCount_iterate_periodic (hv : p.valid = true) (hr : p.divReload = true) (n : Nat) :
    (nextCount p)^[n] 0 = n % p.kDiv := by
  induction n with
  | zero => rw [Nat.zero_mod, Function.iterate_zero_apply]
  | succ n ih => rw [Function.iterate_succ_apply', ih, nextCount_mod_kDiv hv hr]

end Cadence

/-- Settles O25: each count is compared modulo `2^W`, as it is left. -/
theorem literalDividerCadence : Obligations.LiteralDividerCadence := by
  rintro (_ | n) s hv hr h0 hn
  · omega
  · obtain ⟨t, ht, hcnt, hctrl⟩ := execAll_replicate_succ_ctlDiv n hv h0
    rw [nextCount_iterate_literal hr] at hcnt hctrl
    rw [divSuccessor, counted_mod] at hctrl
    exact ⟨t, ht, hcnt, hctrl⟩

/-- Settles O26: the count is the remainder by `K_DIV`, so it matches where the remainder would be `K_DIV`. -/
theorem periodicDividerCadence : Obligations.PeriodicDividerCadence := by
  rintro (_ | n) s hv hr h0 hn
  · omega
  · obtain ⟨t, ht, hcnt, hctrl⟩ := execAll_replicate_succ_ctlDiv n hv h0
    rw [nextCount_iterate_periodic hv hr] at hcnt hctrl
    simp only [divSuccessor, counted_mod_kDiv_match_iff hv] at hctrl
    exact ⟨t, ht, hcnt, hctrl⟩

/-! ### The commanded speed (43_control_loop.md rule R162) -/

theorem clamp_eq {x lo hi : Nat} (h : lo ≤ hi) : clamp x lo hi = max lo (min hi x) := by
  unfold clamp
  split
  · omega
  · split <;> omega

section Target
variable {p : Params}

/-- The commanded speed fits its register. -/
theorem toNat_commandedSpeed (hv : p.valid = true) (a : Nat) :
    (BitVec.ofNat 16 (commandedSpeed p a)).toNat = max p.minRpm (min p.maxRpm (scaled p a)) := by
  obtain ⟨⟨hle, -, hmax⟩, -⟩ := valid_bounds hv
  rw [commandedSpeed, clamp_eq hle]
  exact Nat.mod_eq_of_lt (by omega)

/-- Half of full scale does not round a reading of 0 up. -/
theorem scaled_zero (hv : p.valid = true) : scaled p 0 = 0 := by
  obtain ⟨-, -, ⟨hfull, -⟩, -⟩ := valid_bounds hv
  unfold scaled fdiv
  split
  · exact Nat.div_eq_of_lt (by omega)
  · simp

/-- From full scale on, either rounding reaches `MAX_RPM`. -/
theorem maxRpm_le_scaled (hv : p.valid = true) {a : Nat} (ha : p.fullScale ≤ a) : p.maxRpm ≤ scaled p a := by
  obtain ⟨-, -, ⟨hfull, -⟩, -⟩ := valid_bounds hv
  have hprod : p.fullScale * p.maxRpm ≤ a * p.maxRpm := Nat.mul_le_mul_right _ ha
  unfold scaled fdiv
  split
  all_goals
    rw [Nat.le_div_iff_mul_le (by omega)]
    linarith

end Target

/-- Settles O27: the register holds the clamped value, and the clamp decides both ends. -/
theorem targetIsScaledAndClamped : Obligations.TargetIsScaledAndClamped := by
  refine ⟨rfl, fun s hv => ⟨_, rfl, rfl, ?_, fun ha => ?_, fun ha => ?_, commandedSpeed_range hv _⟩⟩
  · exact toNat_commandedSpeed hv _
  · have hzero : s.adc.toNat = 0 := congrArg BitVec.toNat ha
    refine (toNat_commandedSpeed hv _).trans ?_
    rw [hzero, scaled_zero hv]
    omega
  · obtain ⟨⟨hle, -⟩, -⟩ := valid_bounds hv
    have hreached := maxRpm_le_scaled hv ha
    refine (toNat_commandedSpeed hv _).trans ?_
    omega

/-! ### The measured speed (43_control_loop.md rule R165) -/

/-- Settles O29: 60 times a 16-bit count fits the register, whatever the divisor. -/
theorem measuredSpeedIsTheFloor : Obligations.MeasuredSpeedIsTheFloor := by
  refine ⟨rfl, fun s _ => ⟨_, rfl, rfl, ?_⟩⟩
  have hcount : s.tPulses.toNat < 2 ^ 16 := s.tPulses.isLt
  have hquot : s.tPulses.toNat * 60 / s.cfg.windowConst ≤ s.tPulses.toNat * 60 := Nat.div_le_self _ _
  exact Nat.mod_eq_of_lt (by unfold measuredSpeed fdiv; omega)

/-! ### One cell of the frame (43_control_loop.md rules R166 and R167) -/

/-- The byte written is the rendered one, save for a cell of the measured speed above four digits. -/
theorem formatCell_fst {s : State} {a : Fin 32} (h : a.val ≤ 27 ∨ s.measSpeed.toNat ≤ 9999) :
    (formatCell a s).1 = renderedByte s.cmdSpeed.toNat s.measSpeed.toNat a := by
  by_cases hm : s.measSpeed.toNat ≤ 9999
  · rw [formatCell_of_le hm]
  · have hcell : a.val ≤ 27 := h.resolve_right hm
    unfold formatCell renderedByte
    split
    · rfl
    · rw [if_pos (by omega), if_pos (by omega)]

/-- Of the state, computing a cell changes at most the count of draws. -/
theorem formatCell_snd_eq (a : Fin 32) (s : State) : ∃ n, (formatCell a s).2 = { s with draws := n } := by
  rcases formatCell_snd a s with kept | drawn
  · exact ⟨s.draws, kept⟩
  · exact ⟨_, drawn⟩

theorem formatSuccessor_of_lt {k : BitVec 5} (h : k.toNat < 31) : (formatSuccessor k).toNat = 33 + k.toNat := by
  rw [formatSuccessor, if_pos h]
  exact Nat.mod_eq_of_lt (by omega)

theorem formatSuccessor_last {k : BitVec 5} (h : k.toNat = 31) : formatSuccessor k = 6 :=
  if_neg (by omega)

/-- Settles O30: one store, of the rendered byte wherever that is determined. -/
theorem formatWritesOneCell : Obligations.FormatWritesOneCell := by
  refine ⟨by decide, fun k s => ⟨decodeSt_format k, ?_⟩⟩
  obtain ⟨n, hdrawn⟩ := formatCell_snd_eq k.toFin s
  rw [exec_ctlFmt, hdrawn]
  refine ⟨_, (formatCell k.toFin s).1, rfl, rfl, (memRead_withCell k.isLt _ _ _).trans (if_pos rfl),
    fun a ha => (memRead_withCell k.isLt _ _ a).trans (if_neg ha), fun htext => ?_, fun hlo hhi => ?_, fun hlo hm => ?_,
    formatSuccessor_of_lt, formatSuccessor_last⟩
  · rw [formatCell_fst (.inl (show k.toNat ≤ 27 by omega)), renderedByte_text htext]
  · have hexp : 3 - (k.toNat - 12) = 15 - k.toNat := by omega
    rw [formatCell_fst (.inl (show k.toNat ≤ 27 by omega)), renderedByte_cmd hlo hhi, hexp]
    rfl
  · have hexp : 3 - (k.toNat - 28) = 31 - k.toNat := by omega
    rw [formatCell_fst (.inr hm), renderedByte_meas hlo, hexp]
    rfl

/-! ### The duty correction (43_control_loop.md rules R168 and R277) -/

/-- A byte taken modulo 256 from an integer is that remainder. -/
theorem toNat_ofNat_emod (x : Int) : ((BitVec.ofNat 8 (x % 256).toNat).toNat : Int) = x % 256 := by
  rw [BitVec.toNat_ofNat]
  omega

/-- Settles O32: the rule's quotient is the truncated one, and the byte is the remainder of the branch taken. -/
theorem dutyTakesOneOfThreeBranches : Obligations.DutyTakesOneOfThreeBranches := by
  refine ⟨rfl, fun s => ⟨_, rfl, rfl, ?_⟩⟩
  rw [← tdiv_eq]
  exact toNat_ofNat_emod _

/-- Two speeds in a range above zero differ by less than its upper end. -/
theorem speedError_tdiv_eq_zero {lo hi cmd meas : Nat} (hlo : 1 ≤ lo) (hc : lo ≤ cmd) (hc' : cmd ≤ hi)
    (hm : lo ≤ meas) (hm' : meas ≤ hi) : Int.tdiv ((cmd : Int) - meas) hi = 0 := by
  rw [← Int.natAbs_eq_zero, Int.natAbs_tdiv]
  exact Nat.div_eq_of_lt (by omega)

/-- Settles O33: in range the correction is 255 times a quotient of 0. -/
theorem proportionalBranchIsDead : Obligations.ProportionalBranchIsDead := by
  intro s _ hpos hclo hchi hmlo hmhi
  obtain ⟨-, hduty⟩ := dutyTakesOneOfThreeBranches
  obtain ⟨t, ht, -, hval⟩ := hduty s
  rw [if_pos ⟨hmlo, hmhi⟩, speedError_tdiv_eq_zero hpos hclo hchi hmlo hmhi] at hval
  exact ⟨t, ht, BitVec.eq_of_toNat_eq (by omega)⟩

end Sys2Proof.Machine
end

section
/-! The statement about the pulse event: O13. -/

namespace Sys2Proof.Machine

/-! ### The pulse event (44_dividers_counters.md rule R193) -/

/-- Settles O13: the event is one update of the count, whose sum in 16 bits is the sum modulo `2 ^ 16`. -/
theorem pulseCountsAfterHandover : Obligations.PulseCountsAfterHandover := by
  refine ⟨rfl, fun s => ⟨_, exec_evPulse s, rfl, fun hdone => ?_, fun hdone => ?_⟩⟩
  · have hcount : (if s.initDone then s.pulseCnt + 1 else s.pulseCnt) = s.pulseCnt + 1 := if_pos hdone
    exact (congrArg BitVec.toNat hcount).trans (BitVec.toNat_add _ _)
  · exact if_neg (Bool.eq_false_iff.mp hdone)

end Sys2Proof.Machine
end

section
/-! The statements about the scheduler: O12, O15, O19 and O20. What a tick and a return do is said once for all
sources; the statements read it off for each of the three. -/

namespace Sys2Proof.Machine

/-! ### The ticks (45_scheduler.md rule R207) -/

section Ticks
variable {src : Source} {s : State}

theorem SourceBits.set_self {b : SourceBits} {v : Bool} (h : b.get src = v) : b.set src v = b := by
  subst h
  cases src <;> rfl

/-- A tick that finds the one before it pending is lost, and leaves the overrun mark. -/
theorem latchTick_of_pending (h : s.pend.get src = true) :
    latchTick src s = { s with ovr := s.ovr.set src true } := by
  rw [latchTick_eq, SourceBits.set_self h, h, Bool.true_or]

/-- Any other tick is latched, and the overrun flag stays as it was. -/
theorem latchTick_of_not_pending (h : s.pend.get src = false) :
    latchTick src s = { s with pend := s.pend.set src true } := by
  rw [latchTick_eq, h, Bool.false_or, SourceBits.set_self rfl]

end Ticks

theorem exec_tickOf_eq_ite (src : Source) (s : State) :
    exec (tickOf src) s = .next (if s.pend.get src = true then { s with ovr := s.ovr.set src true }
      else { s with pend := s.pend.set src true }) := by
  rw [exec_tickOf]
  split
  · next pending => rw [latchTick_of_pending pending]
  · next free => rw [latchTick_of_not_pending (Bool.eq_false_iff.mpr free)]

/-- Settles O12: each of the three events is the tick of its source. -/
theorem tickIsLatchedOrMarkedLost : Obligations.TickIsLatchedOrMarkedLost :=
  ⟨⟨rfl, rfl, rfl⟩, fun s => ⟨exec_tickOf_eq_ite .fast s, exec_tickOf_eq_ite .med s, exec_tickOf_eq_ite .ctrl s⟩⟩

/-! ### The returns (45_scheduler.md rule R209) -/

theorem exec_returnOf (src : Source) (s : State) : exec (returnOf src) s = .next (leaveHandler src s) := by
  cases src <;> rfl

/-- Settles O19: each of the three operations is the return of its source. -/
theorem returnOnlyClearsActive : Obligations.ReturnOnlyClearsActive := by
  refine ⟨⟨rfl, rfl, rfl⟩, fun s => ?_⟩
  have clears (src : Source) : exec (returnOf src) s = .next { s with act := s.act.set src false } := by
    rw [exec_returnOf, leaveHandler_eq]
  exact ⟨clears .fast, clears .med, clears .ctrl⟩

/-! ### The background (45_scheduler.md rules R211 and R214) -/

/-- At the state code of `BG.START` the machine waits for `EV.START`. -/
theorem machineTurn_bgStart {s : State} (hr : s.rstActive = false) (hd : dispatchRule s = none)
    (hc : stateCode s = 0x00#8) : machineTurn s = .next s := by
  have hf : fetchMachine s = .ok .bgStart := by
    rw [fetchMachine_of_no_dispatch hd, hc]
    rfl
  rw [machineTurn_of_fetch hr hf, perform_of_not_enabled rfl]

/-- Settles O15: the event and the operation both start the background, and the machine's turn only waits there. -/
theorem startEnablesInterruptsOnce : Obligations.StartEnablesInterruptsOnce := by
  refine ⟨⟨rfl, rfl⟩, fun s => ⟨?_, rfl⟩, fun s rest hv ha hr hd hc => ?_⟩
  · change Host.Outcome.next (startBackground s) = _
    rcases startBackground_cases s with ⟨fresh, started⟩ | ⟨other, ignored⟩
    · rw [started, if_pos fresh]
    · rw [ignored, if_neg other]
  · exact (step_machine hv ha).trans (machineTurn_bgStart (s := { s with agenda := rest }) hr hd hc)

/-- Settles O20: the step register is assigned, which where it stands at 1 already changes nothing. -/
theorem backgroundIdleChangesNothing : Obligations.BackgroundIdleChangesNothing := by
  have assigns (s : State) : exec .bgIdle s = .next (s.setStep .bg 1) := rfl
  refine ⟨rfl, assigns, fun s idle => ?_⟩
  rw [assigns, setStep_self (c := .bg) idle]

end Sys2Proof.Machine
end

section
/-! The statements about exceptions: O18 and O22. Entering a handler is the only exception entry; it assigns the step
register of the context it enters, and an operation of a sequencer assigns that of the running context. -/

namespace Sys2Proof.Machine

/-! ### Entering a handler (60_exceptions.md rule R237) -/

/-- Settles O18: each of the three operations enters the handler of its source. -/
theorem dispatchEntersTheHandlerOnly : Obligations.DispatchEntersTheHandlerOnly := by
  intro s
  have enters (src : Source) : exec (dispatchOf src) s = .next { s with
      pend := s.pend.set src false, act := s.act.set src true, hpc := s.hpc.set src.context 0 } := by
    rw [exec_dispatchOf, enterHandler_eq]
  exact ⟨enters .fast, enters .med, enters .ctrl⟩

/-! ### Preempted contexts (60_exceptions.md rules R236 and R238) -/

section Preempted
variable {s t : State} {c : Context}

/-- The operation that the sequencers decode writes no step register but that of the running context. -/
theorem running_of_writer_step {i : Instr} (h : decodeSt (stateCode s) = .ok i) (hw : (Register.step c).Writer i) :
    s.running = c := by
  rcases hw with ⟨n, hi⟩ | ⟨src, -, rfl⟩ | ⟨-, rfl⟩
  · exact (stands_of_decodeSt h (encode_of_decodeSt hi)).1
  · have hcode := encode_of_decodeSt h
    cases src <;> cases hcode
  · cases encode_of_decodeSt h

/-- An operation of a sequencer leaves the step register of every context but the running one. -/
theorem exec_sequencer_keeps_step {i : Instr} (h : decodeSt (stateCode s) = .ok i) (hx : exec i s = .next t)
    (hc : c ≠ s.running) : t.hpc.get c = s.hpc.get c := by
  have hne : i ≠ .evRst := by
    rintro rfl
    cases encode_of_decodeSt h
  exact exec_writesOnly hne s t hx (.step c) fun hw => hc (running_of_writer_step h hw).symm

/-- Entering a handler leaves the step register of every context but the one it enters. -/
theorem enterHandler_step (src : Source) (s : State) (c : Context) :
    (enterHandler src s).hpc.get c = s.hpc.get c ∨ (src.context = c ∧ (enterHandler src s).hpc.get c = 0) := by
  rw [enterHandler_eq]
  by_cases hc : src.context = c
  · subst hc
    exact .inr ⟨rfl, Steps.get_set_same _ _ _⟩
  · exact .inl (Steps.get_set_other _ (Ne.symm hc) _)

/-- The machine's turn leaves the step register of every context but the running one, or dispatches that context. -/
theorem machineTurn_keeps_step (h : machineTurn s = .next t) (hc : c ≠ s.running) :
    t.hpc.get c = s.hpc.get c ∨ ∃ src, dispatchRule s = some src ∧ src.context = c ∧ t.hpc.get c = 0 := by
  rcases machineTurn_next h with rfl | ⟨i, -, hf, -, hx⟩
  · exact .inl rfl
  rcases fetchMachine_ok hf with ⟨src, hd, rfl⟩ | ⟨-, hi⟩
  · rw [exec_dispatchOf] at hx
    cases hx
    exact (enterHandler_step src s c).imp_right fun entered => ⟨src, hd, entered⟩
  · exact .inl (exec_sequencer_keeps_step hi hx hc)

end Preempted

/-- Settles O22: with the turn taken, the contexts and the dispatch that is wanted are those of the state before. -/
theorem preemptedContextsKeepTheirStep : Obligations.PreemptedContextsKeepTheirStep := by
  intro s t rest c ha h hc
  rw [step_machine (step_next_valid h) ha] at h
  exact machineTurn_keeps_step (s := { s with agenda := rest }) h hc

end Sys2Proof.Machine
end

section
/-! The statement about the release of reset: O9. -/

namespace Sys2Proof.Machine

section Release
variable {w : BitVec 7}

/-- A vector without `RST` releases reset first, so its turn does not depend on whether reset was active. -/
theorem eventTurn_releaseReset (hw : w[6] = false) (s : State) : eventTurn w (releaseReset s) = eventTurn w s := by
  rw [eventTurn_of_no_reset hw, eventTurn_of_no_reset hw, releaseReset_of_released (releaseReset_rstActive s)]

/-- After a vector without `RST` reset is not active: the turn releases it, and no other event activates it. -/
theorem eventTurn_rstActive_of_no_reset (hw : w[6] = false) {s t : State} (h : eventTurn w s = .next t) :
    t.rstActive = false := by
  refine eventTurn_rule (P := fun u => u.rstActive = false) h hw (releaseReset_rstActive s) ?_
  intro i hi u v hr _ hx
  have hne : i ≠ .evRst := fun e => absurd (e ▸ hi) (by decide)
  exact (exec_rstActive hne hx).trans hr

end Release

/-- Settles O9: the turn is that of the released state, and every event has a next state. -/
theorem vectorWithoutResetReleasesReset : Obligations.VectorWithoutResetReleasesReset := by
  intro s rest w hv _ ha hw
  have turn : step s = eventTurn w (s.withTurns rest) := step_event hv ha
  have turnReleased : step (releaseReset s) = eventTurn w (releaseReset (s.withTurns rest)) :=
    step_event (s := releaseReset s) hv ha
  refine ⟨?_, ?_⟩
  · calc step s
      _ = eventTurn w (s.withTurns rest) := turn
      _ = eventTurn w (releaseReset (s.withTurns rest)) := (eventTurn_releaseReset hw _).symm
      _ = step (releaseReset s) := turnReleased.symm
  · obtain ⟨t, ht⟩ := answers_eventTurn w (s.withTurns rest)
    exact ⟨t, turn.trans ht, eventTurn_rstActive_of_no_reset hw ht⟩

end Sys2Proof.Machine
end
